-- ==== Sys2Proof/Word.lean ====
section
/-! DEFINITION. The words of the hardware and the places they are carried: register names, spaces, and a request
(an operation as it is presented to the block). -/

namespace Sys2Proof

/-- One byte (R61). -/
abbrev Byte := BitVec 8

/-- A flash address: exactly 24 bits (R61, `90_conflicts.md` C2). -/
abbrev FlashAddr := BitVec 24

/-- The 40-bit width `W` of the output word, the serializer and the response register (R8, R91). -/
abbrev Frame := BitVec 40

/-- A value on the register bus. The spec gives no bus width; 64 bits hold the widest register, `ID_MAC` (log 11). -/
abbrev BusWord := BitVec 64

/-- The seven memory-mapped registers (R63). -/
inductive Reg where
  | spiCs | spiMosi | spiCtrl | spiStatus | spiMiso | idMac | idIp
deriving DecidableEq, Repr, Inhabited

/-- The seven, in the order of R60. -/
def Reg.all : List Reg := [.spiCs, .spiMosi, .spiCtrl, .spiStatus, .spiMiso, .idMac, .idIp]

/-- Where an operation is presented. The table's rows are told apart by this, and only inside `command` and `wire` by
bits of the word. -/
inductive Space where
  /-- The command port, a 25-bit word `cmd_op`, `cmd_addr` with `cmd_valid` = 1 (R96). -/
  | command
  /-- A whole write of a named register. -/
  | write (r : Reg)
  /-- A whole read of a named register. -/
  | read (r : Reg)
  /-- An access to part of a register (R70). -/
  | part (r : Reg)
  /-- A whole write at a bus address (R63, D19). -/
  | busWrite (addr : Nat)
  /-- A whole read at a bus address (R63, D19). -/
  | busRead (addr : Nat)
  /-- The serial wire, one frame of 40 bit periods, first bit in the most significant position (R91, R150). -/
  | wire
  /-- The internal step `XFER_SHIFT` of the transfer agent. -/
  | shift
  /-- The internal step `XFER_COMPLETE` of the transfer agent. -/
  | complete
deriving DecidableEq, Repr, Inhabited

/-- An operation as it is presented: where, and with which word (0 where the space carries none). -/
structure Request where
  space : Space
  word : BusWord
deriving DecidableEq, Repr, Inhabited

end Sys2Proof
end

