-- ==== Sys2Proof/Config.lean ====
section
/-! DEFINITION. What a build fixes (R8) and what is left free: the OPEN parameters, the draws and the schedule are
constants without a body, so nothing can be proved of their values. -/

namespace Sys2Proof

/-- The agents' turns that are not presented as requests (R12, R220, R271). -/
inductive Turn where
  /-- `HOST`: one transition of the Boot Sequencer (R220). -/
  | boot
  /-- `CRL`: the loader's own step (R192). -/
  | loader
  /-- `TXN`: one phase of the transaction sequencer (R172 to R176). -/
  | sequencer
  /-- `XFER`: one step of the transfer agent (R140). -/
  | transfer
  /-- The reset event (R271). -/
  | reset
deriving DecidableEq, Repr, Inhabited

/-- The bus addresses of the seven registers (R8, R63). -/
structure AddrMap where
  spiCs : Nat
  spiMosi : Nat
  spiCtrl : Nat
  spiStatus : Nat
  spiMiso : Nat
  idMac : Nat
  idIp : Nat
deriving DecidableEq, Repr, Inhabited

namespace Config

/-- `OPC_READ`, the flash read opcode (R8). -/
def opcRead : Byte := 0x03

/-- `XFER_LEN`, bits per read transaction (R8). -/
def xferLen : Byte := 40

/-- `XFER_CNT`, the operation count that starts one transfer (R8). -/
def xferCnt : Byte := 1

/-- `REC_LEN`, bytes in the configuration record (R8). -/
def recLen : Nat := 10

/-- `IP_BYTES`, bytes of the IP field (R8). -/
def ipBytes : Nat := 4

/-- The default of `CFG_BASE`, 4,000,000 (R8, D33). -/
def cfgBaseDefault : FlashAddr := 0x3D0900

/-- OPEN (R8, D26): the contents of the flash device. -/
opaque flash : FlashAddr → Byte

/-- OPEN (R8, D24): whether the device answers the transfer of an ordinal. -/
opaque flashResponds : Nat → Bool

/-- A fresh `draw(1)` (R11, U9): a sample of the undriven line. -/
opaque drawBit : Nat → Bool

/-- Which agent moves when no event is given (R12): every interleaving is some schedule. -/
opaque schedule : Nat → Turn

/-- OPEN (R8): the build flag `HAS_IRQ`. -/
opaque hasIrq : Bool

/-- OPEN (R8): the build flag `HAS_UART`. -/
opaque hasUart : Bool

/-- Free (R228, U15): whether the external memory routine returns from its call of this number, each call afresh
(log 9). -/
opaque memReturns : Nat → Bool

/-- OPEN (R8, D19): the seven register addresses. -/
opaque addrMap : AddrMap

/-- OPEN (R8, D36), and no rule depends on it. -/
opaque sclkDiv : Nat

end Config

end Sys2Proof
end

