-- ==== Sys2Proof/Syntax.lean ====
section
/-! DEFINITION. The operations ("instructions") of the hardware: R13, one constructor per row of
`spec/opcode_table.json`. -/

namespace Sys2Proof

/-- The seventeen operations of R13. -/
inductive Instr where
  /-- `READ_BYTE a` (R170). -/
  | readByte (a : FlashAddr)
  /-- `LOAD_IDENTITY` (R190). -/
  | loadIdentity
  /-- `CS_WR v` (R120). -/
  | csWr (v : BusWord)
  /-- `MOSI_WR v` (R121). -/
  | mosiWr (v : BusWord)
  /-- `CTRL_WR v` (R122). -/
  | ctrlWr (v : BusWord)
  /-- `STATUS_RD` (R123). -/
  | statusRd
  /-- `MISO_RD` (R124). -/
  | misoRd
  /-- `CS_RD` (R125). -/
  | csRd
  /-- `MOSI_RD` (R126). -/
  | mosiRd
  /-- `CTRL_RD` (R127). -/
  | ctrlRd
  /-- `STATUS_WR v` (R128). -/
  | statusWr (v : BusWord)
  /-- `MISO_WR v` (R129). -/
  | misoWr (v : BusWord)
  /-- `XFER_SHIFT` (R143). -/
  | xferShift
  /-- `XFER_COMPLETE` (R145). -/
  | xferComplete
  /-- `FLASH_READ` of address `a` (R150). -/
  | flashRead (a : FlashAddr)
  /-- `ID_MAC_WR v` (R226). -/
  | idMacWr (v : BusWord)
  /-- `ID_IP_WR v` (R227). -/
  | idIpWr (v : BusWord)
deriving DecidableEq, Repr, Inhabited

end Sys2Proof
end

