-- ==== Sys2Proof/Machine/Operands.lean ====
section
/-! DEFINITION. Operand forms: the fields of each format of `30_encoding.md`, the outgoing word, the accumulation
rules. -/

namespace Sys2Proof.Machine

open Sys2Proof

/-- Format `CS1` (R93): bit 0 is stored, the rest is ignored. -/
def csBit (v : BusWord) : Bool := v.getLsbD 0

/-- Format `W40` (R95): bits above 39 are ignored. -/
def wordOf (v : BusWord) : Frame := v.setWidth 40

/-- Format `CTRL16` (R92): `LENGTH` is bits 15 to 8. -/
def ctrlLen (v : BusWord) : Byte := v.extractLsb' 8 8

/-- Format `CTRL16` (R92): `OPCNT` is bits 7 to 0. -/
def ctrlCnt (v : BusWord) : Byte := v.extractLsb' 0 8

/-- Format `ID` (R99): the IP value is 32 bits. -/
def ipOperand (v : BusWord) : BitVec 32 := v.setWidth 32

/-- What a control value asks for (R122, R105). -/
inductive CtrlKind where
  | store | start | reservedCount | reservedLength
deriving DecidableEq, Repr

/-- The sub-decode of `CTRL_WR` on its two fields (R122, R105 (a) to (c)). -/
def ctrlKind (v : BusWord) : CtrlKind :=
  if ctrlCnt v = 0 then .store
  else if ctrlCnt v = Config.xferCnt then
    if ctrlLen v = 0 ∨ 40 < (ctrlLen v).toNat then .reservedLength else .start
  else .reservedCount

/-- The outgoing word `out(a)`: opcode, address, zero pad (R91, R100). -/
def outWord (a : FlashAddr) : Frame := Config.opcRead ++ a ++ (0 : Byte)

/-- The one control value the sequencer writes, `LENGTH` = 40 and `OPCNT` = 1 (R92, R174). -/
def goWord : BusWord := (Config.xferLen ++ Config.xferCnt).setWidth 64

/-- The response byte: the low byte of the response register (R102). -/
def respByte (m : Frame) : Byte := m.setWidth 8

/-- `ip_next` (R195). -/
def ipNext (acc : BitVec 32) (i : BitVec 4) (b : Byte) : BitVec 32 :=
  if i = 0 then b.setWidth 32 else (acc <<< 8) ||| b.setWidth 32

/-- `mac_next` (R196). -/
def macNext (acc : BitVec 64) (i : BitVec 4) (b : Byte) : BitVec 64 :=
  if i = 4 then b.setWidth 64 else (acc <<< 8) ||| b.setWidth 64

/-- `DevOut(t)` of R150, for a frame of `len` bit periods whose driven bits are `mosi[len - 1 - u]` at time `u` (R144):
the bit the device drives at time `t`, or nothing. -/
def devOut (flash : FlashAddr → Byte) (mosi : Frame) (len t : Nat) : Option Bool :=
  if 32 ≤ t ∧ t < 40 ∧ (mosi >>> (len - 8)).setWidth 8 = Config.opcRead then
    some ((flash ((mosi >>> (len - 32)).setWidth 24)).getLsbD (39 - t))
  else none

end Sys2Proof.Machine
end

