-- ==== Sys2Proof/WellFormed.lean ====
section
/-! DEFINITION. Which operations are legal encodings: R105 reserves control values, every other operand value is legal. -/

namespace Sys2Proof

/-- A reserved control value is ill-formed (R105 (a), (b)); every other operation is well-formed (R105 (c), (d)). -/
def WellFormed : Instr → Bool
  | .ctrlWr v => Machine.ctrlKind v = .store ∨ Machine.ctrlKind v = .start
  | .readByte _ => true
  | .loadIdentity => true
  | .csWr _ => true
  | .mosiWr _ => true
  | .statusRd => true
  | .misoRd => true
  | .csRd => true
  | .mosiRd => true
  | .ctrlRd => true
  | .statusWr _ => true
  | .misoWr _ => true
  | .xferShift => true
  | .xferComplete => true
  | .flashRead _ => true
  | .idMacWr _ => true
  | .idIpWr _ => true

end Sys2Proof
end

