-- ==== Sys2Proof/Decode.lean ====
section
/-! DEFINITION. The decoder, from a request to an operation or a named rejection, and the encoder beside it. -/

namespace Sys2Proof

/-- Why a request is no operation. -/
inductive DecodeError where
  /-- A command word with a bit above 24: an address of 2^24 or more (R101). -/
  | addressTooWide
  /-- A control value whose count is reserved (R105 (a)). -/
  | reservedCount
  /-- A start whose length is reserved (R105 (b)). -/
  | reservedLength
  /-- A read of a write-only identity register (R43). -/
  | writeOnlyRead
  /-- A partial or misaligned register access (R70). -/
  | partialAccess
  /-- A bus address that none of the seven registers has (R63). -/
  | noRegister
  /-- A wire frame of more than 40 bits (R91, R105 (b)). -/
  | frameTooLong
  /-- A wire frame whose first eight bits are not 0x03 (R104, U8): no operation of the table, but the device meets it as
  R105 (e) says. -/
  | foreignFrame
deriving DecidableEq, Repr

/-- The bus address of a register. -/
def AddrMap.addr (m : AddrMap) : Reg → Nat
  | .spiCs => m.spiCs
  | .spiMosi => m.spiMosi
  | .spiCtrl => m.spiCtrl
  | .spiStatus => m.spiStatus
  | .spiMiso => m.spiMiso
  | .idMac => m.idMac
  | .idIp => m.idIp

/-- Which register a bus address selects (R74: directly). -/
def AddrMap.regAt (m : AddrMap) (addr : Nat) : Option Reg := Reg.all.find? fun r => m.addr r == addr

/-- A bus access names the register its address selects; every other request stays as it is. -/
def resolve (m : AddrMap) (q : Request) : Request :=
  match q.space with
  | .busWrite a => match m.regAt a with
    | some r => ⟨.write r, q.word⟩
    | none => q
  | .busRead a => match m.regAt a with
    | some r => ⟨.read r, q.word⟩
    | none => q
  | _ => q

/-- Format `CMD25` (R96): bit 24 is `cmd_op`, bits 23 to 0 are `cmd_addr`, ignored by `LOAD_IDENTITY`. -/
def decodeCommand (w : BusWord) : Except DecodeError Instr :=
  if w >>> 25 ≠ 0 then .error .addressTooWide
  else if w.getLsbD 24 then .ok .loadIdentity
  else .ok (.readByte (w.setWidth 24))

/-- `CTRL_WR`, the one register write with a sub-decode (R104). -/
def decodeControl (w : BusWord) : Except DecodeError Instr :=
  match Machine.ctrlKind w with
  | .reservedCount => .error .reservedCount
  | .reservedLength => .error .reservedLength
  | .store => .ok (.ctrlWr w)
  | .start => .ok (.ctrlWr w)

/-- Format `SPI40` (R91, R105 (f)): the first eight bits are the opcode, the next 24 the address, the pad is ignored. -/
def decodeFrame (w : BusWord) : Except DecodeError Instr :=
  if w >>> 40 ≠ 0 then .error .frameTooLong
  else if w.extractLsb' 32 8 = Config.opcRead then .ok (.flashRead (w.extractLsb' 8 24))
  else .error .foreignFrame

/-- Register writes, selected by the register (R104). -/
def decodeWrite (w : BusWord) : Reg → Except DecodeError Instr
  | .spiCs => .ok (.csWr w)
  | .spiMosi => .ok (.mosiWr w)
  | .spiCtrl => decodeControl w
  | .spiStatus => .ok (.statusWr w)
  | .spiMiso => .ok (.misoWr w)
  | .idMac => .ok (.idMacWr w)
  | .idIp => .ok (.idIpWr w)

/-- Register reads, selected by the register (R104); the identity registers are write-only (R43). -/
def decodeRead : Reg → Except DecodeError Instr
  | .spiCs => .ok .csRd
  | .spiMosi => .ok .mosiRd
  | .spiCtrl => .ok .ctrlRd
  | .spiStatus => .ok .statusRd
  | .spiMiso => .ok .misoRd
  | .idMac => .error .writeOnlyRead
  | .idIp => .error .writeOnlyRead

/-- The decoder: an operation is selected by its space, and inside a space as the format says. -/
def decode (q : Request) : Except DecodeError Instr :=
  match q.space with
  | .command => decodeCommand q.word
  | .write r => decodeWrite q.word r
  | .read r => decodeRead r
  | .part _ => .error .partialAccess
  | .busWrite _ => .error .noRegister
  | .busRead _ => .error .noRegister
  | .wire => decodeFrame q.word
  | .shift => .ok .xferShift
  | .complete => .ok .xferComplete

/-- The request that presents an operation: the words of the encoding rules R91 to R99; 0 where a space carries no
word, and `cmd_addr` 0 for `LOAD_IDENTITY`, which ignores it. -/
def encode : Instr → Request
  | .readByte a => ⟨.command, a.setWidth 64⟩
  | .loadIdentity => ⟨.command, 0x1000000⟩
  | .csWr v => ⟨.write .spiCs, v⟩
  | .mosiWr v => ⟨.write .spiMosi, v⟩
  | .ctrlWr v => ⟨.write .spiCtrl, v⟩
  | .statusRd => ⟨.read .spiStatus, 0⟩
  | .misoRd => ⟨.read .spiMiso, 0⟩
  | .csRd => ⟨.read .spiCs, 0⟩
  | .mosiRd => ⟨.read .spiMosi, 0⟩
  | .ctrlRd => ⟨.read .spiCtrl, 0⟩
  | .statusWr v => ⟨.write .spiStatus, v⟩
  | .misoWr v => ⟨.write .spiMiso, v⟩
  | .xferShift => ⟨.shift, 0⟩
  | .xferComplete => ⟨.complete, 0⟩
  | .flashRead a => ⟨.wire, (Machine.outWord a).setWidth 64⟩
  | .idMacWr v => ⟨.write .idMac, v⟩
  | .idIpWr v => ⟨.write .idIp, v⟩

/-- The request a word of the opcode table stands for. The table's rows are told apart by their space, which a word
does not carry, so the width of the row picks the space (DESIGN CHOICE, log 2): 8 bits a write of `SPI_CS`, 16 of
`SPI_CTRL`, 32 the command port, 40 the serial wire for a read frame and else a write of `SPI_MOSI`, more a write of
`ID_MAC`. -/
def tableRequest (nbits w : Nat) : Request :=
  let word := BitVec.ofNat 64 w
  if nbits ≤ 8 then ⟨.write .spiCs, word⟩
  else if nbits ≤ 16 then ⟨.write .spiCtrl, word⟩
  else if nbits ≤ 32 then ⟨.command, word⟩
  else if nbits ≤ 40 then
    if word &&& 0xFF000000FF = 0x0300000000 then ⟨.wire, word⟩ else ⟨.write .spiMosi, word⟩
  else ⟨.write .idMac, word⟩

/-- The operation the decoder reads from a word of the opcode table (log 2). -/
def decodeTableWord (nbits w : Nat) : Option Instr := (decode (tableRequest nbits w)).toOption

end Sys2Proof
end

