-- ==== Sys2Proof/Machine/State.lean ====
section
/-! DEFINITION. The state of the machine (R20), its reset value (R270), and the reasons a step stops. -/

namespace Sys2Proof.Machine

open Sys2Proof

/-- `T_PHASE` (R30). -/
inductive TPhase where
  | idle | sel | cmd | go | poll | resp
deriving DecidableEq, Repr, Inhabited

/-- `L_PHASE` (R34). -/
inductive LPhase where
  | idle | req | wait | done
deriving DecidableEq, Repr, Inhabited

/-- `B_STATE` (R44). -/
inductive BState where
  | reset | irq | console | loaded | published | memReady | idle
deriving DecidableEq, Repr, Inhabited

/-- The response port in the step that delivers (R97): `rsp_op` with the signals it names. -/
inductive Response where
  | byte (b : Byte)
  | identity (ip : BitVec 32) (mac : BitVec 64)
deriving DecidableEq, Repr, Inhabited

/-- A register access as the register interface shows it. -/
inductive Access where
  | wrote (r : Reg) (v : BusWord)
  | got (r : Reg) (v : BusWord)
deriving DecidableEq, Repr, Inhabited

/-- A call of an external routine by the host (R221, R222, R228). -/
inductive External where
  | interruptSetup | uartInit | memInit
deriving DecidableEq, Repr, Inhabited

/-- What a step shows at the block's boundary: wires, not stored state of the hardware (R45; log 13). -/
structure Wires where
  /-- The response port (R97); absent means `rsp_valid` = 0. -/
  rsp : Option Response
  /-- The register access of the step and, for a read, its result. -/
  access : Option Access
  /-- The serial output bit of a bit period (R143). -/
  mosiBit : Option Bool
  /-- The serial input sample of a bit period (R143). -/
  misoBit : Option Bool
  /-- The eight bits the device drives in periods 32 to 39 of a frame presented whole (R150); none for a frame it does
  not answer. -/
  devByte : Option Byte
  /-- The samples of all forty periods of a frame presented whole, first sample most significant. -/
  samples : Option Frame
  /-- The external routine called. -/
  external : Option External
deriving DecidableEq, Repr, Inhabited

/-- Nothing shown. -/
def Wires.quiet : Wires := ⟨none, none, none, none, none, none, none⟩

/-- OPEN parameters of a run that a claim may fix (R8, R20). What is not listed here is the free constant of `Config`. -/
structure Params where
  /-- `CFG_BASE` (R8, D33). -/
  cfgBase : FlashAddr
  /-- `FLASH_RESPONDS` of the first ordinals (R152). -/
  responds : List Bool
  /-- The first drawn samples (R11). -/
  samples : List Bool
  /-- `HAS_IRQ`. -/
  hasIrq : Option Bool
  /-- `HAS_UART`. -/
  hasUart : Option Bool
  /-- Whether the memory routine returns from its first calls (R228). -/
  memReturns : List Bool
  /-- The seven register addresses (R63). -/
  addrs : Option AddrMap
deriving DecidableEq, Repr, Inhabited

/-- Nothing fixed but the default base (R8). -/
def Params.default : Params := ⟨Config.cfgBaseDefault, [], [], none, none, [], none⟩

/-- One event of a run (R12): an operation presented, or an agent's turn. -/
inductive Event where
  | request (q : Request)
  | turn (t : Turn)
deriving DecidableEq, Repr, Inhabited

/-- Flash contents: listed (address, byte) cells; an unlisted address reads as the free byte of `Config.flash`. -/
abbrev Memory := List Host.Cell

/-- The machine's state: R20, then the flash, then the model's own fields. -/
structure State where
  /-- `CS` (R21). -/
  cs : Bool
  /-- `MOSI` (R22). -/
  mosi : Frame
  /-- `CTRL.LENGTH` (R23). -/
  ctrlLength : Byte
  /-- `STATUS.DONE` (R24). -/
  done : Bool
  /-- `MISO` (R25). -/
  miso : Frame
  /-- `TXSR` (R26). -/
  txsr : Frame
  /-- `BITCNT` (R27). -/
  bitcnt : BitVec 6
  /-- `BUSY` (R28). -/
  busy : Bool
  /-- `T_PHASE` (R30). -/
  tPhase : TPhase
  /-- `T_ADDR` (R31). -/
  tAddr : FlashAddr
  /-- `T_DATA` (R32). -/
  tData : Byte
  /-- `T_ORD` (R33). -/
  tOrd : Nat
  /-- `L_PHASE` (R34). -/
  lPhase : LPhase
  /-- `L_IDX` (R35). -/
  lIdx : BitVec 4
  /-- `L_PTR` (R36). -/
  lPtr : FlashAddr
  /-- `IP_ACC` (R37). -/
  ipAcc : BitVec 32
  /-- `MAC_ACC` (R38). -/
  macAcc : BitVec 64
  /-- `ID_MAC` (R43); `none` is `unwritten`. -/
  idMac : Option (BitVec 64)
  /-- `ID_IP` (R43); `none` is `unwritten`. -/
  idIp : Option (BitVec 32)
  /-- `B_STATE` (R44). -/
  bState : BState
  /-- `Flash` (R61, R62): a parameter of the run, written by nothing. -/
  flash : Memory
  /-- The other OPEN parameters (R8), written by nothing. -/
  params : Params
  /-- The model's own: the events to come. -/
  agenda : List Event
  /-- The model's own: turns taken from the free schedule. -/
  tick : Nat
  /-- The model's own: drawn samples taken. -/
  drawIdx : Nat
  /-- The model's own: calls of the memory routine made (log 9). -/
  memCalls : Nat
  /-- The host is inside a call of the memory routine that does not return (R228, U15). -/
  memHung : Bool
  /-- The model's own: what the last step showed. -/
  wires : Wires
deriving DecidableEq, Repr, Inhabited

/-- The machine right after reset (R270). -/
def State.reset : State where
  cs := false
  mosi := 0
  ctrlLength := 0
  done := false
  miso := 0
  txsr := 0
  bitcnt := 0
  busy := false
  tPhase := .idle
  tAddr := 0
  tData := 0
  tOrd := 0
  lPhase := .idle
  lIdx := 0
  lPtr := 0
  ipAcc := 0
  macAcc := 0
  idMac := none
  idIp := none
  bState := .reset
  flash := []
  params := .default
  agenda := []
  tick := 0
  drawIdx := 0
  memCalls := 0
  memHung := false
  wires := .quiet

/-- Faults: none. The hardware has no trap, and no situation is classed as one (R240, R256). -/
inductive Fault where
deriving DecidableEq, Repr

/-- Refusals: the `refuse` outcome of R11 and R256. All are safe: the model stops where the spec gives no meaning. -/
inductive Refusal where
  /-- Raised by `exec` for an instruction without a meaning; none is left. Safe. -/
  | notModelled (mnemonic : String)
  /-- Raised by a write of `SPI_CS`, `SPI_MOSI` or `SPI_CTRL` while `BUSY` = 1 (R130, U4). Safe. -/
  | writeWhileBusy
  /-- Raised by a host access to any register while a block command runs (R131, R72, U6). Safe. -/
  | notEntitled
  /-- Raised by `CTRL_WR` with a count of 2 to 255 (R105 (a), U1). Safe. -/
  | reservedCount
  /-- Raised by a start with length 0 or above 40 (R105 (b), U2). Safe. -/
  | reservedLength
  /-- Raised by a start with `CS` = 0 (R122, U3). Safe. -/
  | startUnselected
  /-- Raised by a write of an identity register outside `B_LOADED` (R226, R227). Safe. -/
  | identityNotLoaded
  /-- Raised by a second write of an identity register (R226, R227, D30). Safe. -/
  | identityRewrite
  /-- Raised by `ID_IP_WR` before `ID_MAC_WR` (R227, U10). Safe. -/
  | ipBeforeMac
  /-- Raised by a read of an identity register (R43, U6). Safe. -/
  | writeOnlyRead
  /-- Raised by a partial register access (R70, U6). Safe. -/
  | partialAccess
  /-- Raised by a command word whose address needs more than 24 bits (R101, U6). Safe. -/
  | addressTooWide
  /-- Raised by a bus access at an address of none of the seven registers (R63). Safe. -/
  | noRegister
  /-- Raised by a wire frame of more than 40 bits, which no transfer can produce: `LENGTH` > 40 is reserved (R105 (b),
  U2). Safe. -/
  | frameTooLong
deriving DecidableEq, Repr

end Sys2Proof.Machine
end

