-- ==== Sys2Proof/Machine/Flags.lean ====
section
/-! DEFINITION. The single-bit conditions of R42 and the derived signals of R39, R45, R131 and R141. -/

namespace Sys2Proof.Machine

open Sys2Proof

/-- The select line `SEL` the flash device sees (R141). -/
def sel (s : State) : Bool := s.cs && s.busy

/-- `ID_VALID` (R39). -/
def idValid (s : State) : Bool := s.lPhase = .done

/-- The loader is not running: `L_PHASE` in {`L_IDLE`, `L_DONE`}. -/
def loaderQuiet (s : State) : Bool := s.lPhase = .idle ∨ s.lPhase = .done

/-- `cmd_ready` (R45). -/
def cmdReady (s : State) : Bool := s.tPhase = .idle ∧ loaderQuiet s ∧ s.busy = false

/-- Whether the host may access the five registers (R131). -/
def hostEntitled (s : State) : Bool := s.tPhase = .idle ∧ loaderQuiet s

/-- The host has no further step until reset: it is in `B_IDLE` (R229), or inside a memory routine that does not return
(R228, U15). -/
def hostAtRest (s : State) : Bool := s.bState = .idle ∨ s.memHung = true

/-- The host may take a step of its own: no block command runs (R72), and no call holds it (R228). -/
def hostFree (s : State) : Bool := hostEntitled s ∧ s.memHung = false

/-- The serial output level while a transfer runs (R45). -/
def mosiLine (s : State) : Bool := s.txsr.getLsbD 39

/-- The value `SPI_STATUS` reads: bit 0 is `DONE`, the rest zero (R94). -/
def statusValue (s : State) : BusWord := (BitVec.ofBool s.done).setWidth 64

end Sys2Proof.Machine
end

