-- ==== Sys2Proof/Machine/Ops.lean ====
section
/-! DEFINITION. The named operations over the flash, the parameters, the registers, the serializer, the sequencer, the
loader and the identity registers. There is no exception to take and none to return from: R240 (no exception), R246 (the
interrupt stub changes nothing), so no operation here writes a saved register or changes a mode (R250: one mode). -/

namespace Sys2Proof.Machine

open Sys2Proof

/-- The outcome of an operation. -/
abbrev Result := Host.Outcome State Fault Refusal

/-! ### The flash contents and the parameters -/

/-- The canonical form of the flash cells: addresses strictly rising and inside the space, and no cell equal to what an
unlisted address reads as. -/
def Memory.wf (m : Memory) : Bool :=
  decide (m.Pairwise (fun x y => x.1 < y.1)) && m.all (fun c => decide (c.1 < 2 ^ 24)) &&
    m.all (fun c => decide (c.2 ≠ Config.flash (BitVec.ofNat 24 c.1)))

/-- One byte of flash (R61): the listed cell, else the free byte. -/
def Memory.read (m : Memory) (a : FlashAddr) : Byte := (m.lookup a.toNat).getD (Config.flash a)

/-- `Flash(a)` (R61). -/
def flashAt (s : State) (a : FlashAddr) : Byte := Memory.read s.flash a

/-- `FLASH_RESPONDS(n)` (R145, R152). -/
def flashResponds (s : State) (n : Nat) : Bool := (s.params.responds[n]?).getD (Config.flashResponds n)

/-- The drawn sample of an index (R11, R144). -/
def drawAt (s : State) (n : Nat) : Bool := (s.params.samples[n]?).getD (Config.drawBit n)

/-- `HAS_IRQ` (R221). -/
def hasIrq (s : State) : Bool := s.params.hasIrq.getD Config.hasIrq

/-- `HAS_UART` (R222). -/
def hasUart (s : State) : Bool := s.params.hasUart.getD Config.hasUart

/-- Whether the memory routine returns from the next call (R228). The spec leaves each call's outcome open, so each call
has its own free value (DESIGN CHOICE, log 9). -/
def memReturns (s : State) : Bool := (s.params.memReturns[s.memCalls]?).getD (Config.memReturns s.memCalls)

/-- The seven register addresses (R63). -/
def addrMap (s : State) : AddrMap := s.params.addrs.getD Config.addrMap

/-! ### The register interface -/

/-- The step shows a register access. -/
def State.shows (s : State) (a : Access) : State := { s with wires := { s.wires with access := some a } }

/-- The value a register of the five reads as (R123 to R127); the identity registers have no read (R43). -/
def readValue (s : State) : Reg → BusWord
  | .spiCs => (BitVec.ofBool s.cs).setWidth 64
  | .spiMosi => s.mosi.setWidth 64
  | .spiCtrl => (s.ctrlLength ++ (0 : Byte)).setWidth 64
  | .spiStatus => statusValue s
  | .spiMiso => s.miso.setWidth 64
  | .idMac => 0
  | .idIp => 0

/-- A read of one of the five registers changes nothing (R73). -/
def regRead (r : Reg) (s : State) : State := s.shows (.got r (readValue s r))

/-- A write that is ignored (R128, R129). -/
def regIgnore (r : Reg) (v : BusWord) (s : State) : State := s.shows (.wrote r v)

/-- The write of `SPI_CS` (R120, R130). -/
def csWrite (v : BusWord) (s : State) : Result :=
  if s.busy then .refused .writeWhileBusy
  else .next (State.shows { s with cs := csBit v } (.wrote .spiCs v))

/-- The write of `SPI_MOSI` (R121, R130). -/
def mosiWrite (v : BusWord) (s : State) : Result :=
  if s.busy then .refused .writeWhileBusy
  else .next (State.shows { s with mosi := wordOf v } (.wrote .spiMosi v))

/-- The start of a transfer of `len` bits, all in one step (R122). -/
def startTransfer (len : Byte) (s : State) : State :=
  { s with
    ctrlLength := len
    txsr := s.mosi <<< (40 - len.toNat)
    bitcnt := len.setWidth 6
    busy := true
    done := false
    tOrd := s.tOrd + 1 }

/-- The write of `SPI_CTRL` (R122, R130). -/
def ctrlWrite (v : BusWord) (s : State) : Result :=
  if s.busy then .refused .writeWhileBusy
  else
    match ctrlKind v with
    | .store => .next (State.shows { s with ctrlLength := ctrlLen v } (.wrote .spiCtrl v))
    | .start =>
      if s.cs then .next ((startTransfer (ctrlLen v) s).shows (.wrote .spiCtrl v))
      else .refused .startUnselected
    | .reservedCount => .refused .reservedCount
    | .reservedLength => .refused .reservedLength

/-- A host access: performed where the host is entitled, refused elsewhere (R131). -/
def hostAccess (op : State → Result) (s : State) : Result :=
  if hostEntitled s then op s else .refused .notEntitled

/-! ### The serializer and the device -/

/-- The time index of the current bit period (R143). -/
def bitTime (s : State) : Nat := s.ctrlLength.toNat - s.bitcnt.toNat

/-- What the device drives in the current bit period: nothing unless selected and answering this transfer (R141, R144,
R150, R152; P4 of `95_test_vectors.md`: unanswered, all forty samples are draws). -/
def devSample (s : State) : Option Bool :=
  if sel s ∧ flashResponds s (s.tOrd - 1) = true then devOut (flashAt s) s.mosi s.ctrlLength.toNat (bitTime s) else none

/-- `DevSample(t)` of the current bit period (R144): the driven bit, else a draw. -/
def sampleBit (s : State) : Bool := (devSample s).getD (drawAt s s.drawIdx)

/-- One bit period (R143). A draw uses up one index. -/
def shiftStep (s : State) : State :=
  { s with
    txsr := s.txsr <<< 1
    miso := (s.miso <<< 1) ||| (BitVec.ofBool (sampleBit s)).setWidth 40
    bitcnt := s.bitcnt - 1
    drawIdx := if (devSample s).isSome then s.drawIdx else s.drawIdx + 1
    wires := { s.wires with mosiBit := some (mosiLine s), misoBit := some (sampleBit s) } }

/-- When `XFER_SHIFT` is enabled (R143). -/
def shiftEnabled (s : State) : Bool := s.busy = true ∧ s.bitcnt ≠ 0

/-- When `XFER_COMPLETE` is enabled (R145). -/
def completeEnabled (s : State) : Bool :=
  s.busy = true ∧ s.bitcnt = 0 ∧ flashResponds s (s.tOrd - 1) = true

/-- The end of a transfer (R145). -/
def completeStep (s : State) : State := { s with busy := false, done := true }

/-- The samples of the first `n` periods of a frame of forty whose driven bits are `w`: the device's bit, or a draw
(R144, R150). -/
def frameSamples (w : Frame) (s : State) : Nat → Frame
  | 0 => 0
  | n + 1 => (frameSamples w s n <<< 1) |||
      (BitVec.ofBool ((devOut (flashAt s) w 40 n).getD (drawAt s (s.drawIdx + n)))).setWidth 40

/-- The device's answer to one whole frame (R150): the addressed byte after the opcode 0x03, and nothing after any other
(R105 (e), U8). Nothing is stored (log 22). -/
def deviceFrame (w : Frame) (s : State) : State :=
  { s with
    drawIdx := s.drawIdx + 40
    wires := { s.wires with
      devByte := if w.extractLsb' 32 8 = Config.opcRead then some (flashAt s (w.extractLsb' 8 24)) else none
      samples := some (frameSamples w s 40) } }

/-! ### The sequencer and the loader -/

/-- The sequencer accepts an address (R171). -/
def acceptRead (a : FlashAddr) (s : State) : State := { s with tAddr := a, tPhase := .sel }

/-- The loader accepts a load (R191). -/
def acceptLoad (s : State) : State := { s with lIdx := 0, lPtr := s.params.cfgBase, lPhase := .req }

/-- The loader requests the byte at its pointer (R192). -/
def requestByte (s : State) : State := { acceptRead s.lPtr s with lPhase := .wait }

/-- The field assembler: exactly one accumulator takes the byte (R193, R195, R196). -/
def assemble (b : Byte) (s : State) : State :=
  if s.lIdx.toNat < Config.ipBytes then { s with ipAcc := ipNext s.ipAcc s.lIdx b }
  else { s with macAcc := macNext s.macAcc s.lIdx b }

/-- The host receives the identity (R223): it leaves `B_CONSOLE`, the state in which it waits for it. -/
def receiveIdentity (s : State) : State :=
  { s with
    bState := if s.bState = .console then .loaded else s.bState
    wires := { s.wires with rsp := some (.identity s.ipAcc s.macAcc) } }

/-- The loader consumes a delivered byte (R193) and delivers after the last one (R194). -/
def consumeByte (b : Byte) (s : State) : State :=
  let t := { assemble b s with lIdx := s.lIdx + 1, lPtr := s.lPtr + 1 }
  if (s.lIdx + 1).toNat = Config.recLen then receiveIdentity { t with lPhase := .done }
  else { t with lPhase := .req }

/-- The byte goes to the loader if it requested the transaction, else to the host (R176). -/
def deliverByte (b : Byte) (s : State) : State :=
  if s.lPhase = .wait then consumeByte b s
  else { s with wires := { s.wires with rsp := some (.byte b) } }

/-! ### The identity registers -/

/-- The write of `ID_MAC` (R226). -/
def idMacWrite (v : BusWord) (s : State) : Result :=
  if s.idMac ≠ none then .refused .identityRewrite
  else if s.bState ≠ .loaded then .refused .identityNotLoaded
  else .next (State.shows { s with idMac := some v } (.wrote .idMac v))

/-- The write of `ID_IP` (R227). -/
def idIpWrite (v : BusWord) (s : State) : Result :=
  if s.idIp ≠ none then .refused .identityRewrite
  else if s.bState ≠ .loaded then .refused .identityNotLoaded
  else if s.idMac = none then .refused .ipBeforeMac
  else .next (State.shows { s with idIp := some (ipOperand v), bState := .published } (.wrote .idIp v))

/-! ### Reset -/

/-- The reset event (R270, R271): every piece of R20's state at its reset value. The flash, the parameters and the
model's own bookkeeping are no state of the hardware and stay (R62, log 17). A host inside a call starts anew (R272). -/
def resetEvent (s : State) : State :=
  { State.reset with
    flash := s.flash
    params := s.params
    agenda := s.agenda
    tick := s.tick
    drawIdx := s.drawIdx
    memCalls := s.memCalls }

end Sys2Proof.Machine
end

