-- ==== Sys2Proof/Machine/Command.lean ====
section
/-! DEFINITION. The two block commands of the command port. A command that is not accepted is ignored (R96). -/

namespace Sys2Proof.Machine

open Sys2Proof

/-- `READ_BYTE a` (R170, R171). The five phases that follow are the sequencer's steps. -/
def execReadByte (a : FlashAddr) (s : State) : Result :=
  if cmdReady s then .next (acceptRead a s) else .next s

/-- `LOAD_IDENTITY` (R190, R191). The byte collection that follows is the loader's and the sequencer's. -/
def execLoadIdentity (s : State) : Result :=
  if cmdReady s ∧ s.lPhase = .idle then .next (acceptLoad s) else .next s

end Sys2Proof.Machine
end

