-- ==== Sys2Proof/Machine/Identity.lean ====
section
/-! DEFINITION. The publication operations. -/

namespace Sys2Proof.Machine

open Sys2Proof

/-- `ID_MAC_WR v` (R226), refused while a block command runs like every register access (R72, U6, log 36). -/
def execIdMacWr (v : BusWord) (s : State) : Result := hostAccess (idMacWrite v) s

/-- `ID_IP_WR v` (R227), with the same gate. -/
def execIdIpWr (v : BusWord) (s : State) : Result := hostAccess (idIpWrite v) s

end Sys2Proof.Machine
end

