-- ==== Sys2Proof/Machine/Register.lean ====
section
/-! DEFINITION. The ten register access operations as the host performs them (R131). -/

namespace Sys2Proof.Machine

open Sys2Proof

/-- `CS_WR v` (R120). -/
def execCsWr (v : BusWord) (s : State) : Result := hostAccess (csWrite v) s

/-- `MOSI_WR v` (R121). -/
def execMosiWr (v : BusWord) (s : State) : Result := hostAccess (mosiWrite v) s

/-- `CTRL_WR v` (R122). -/
def execCtrlWr (v : BusWord) (s : State) : Result := hostAccess (ctrlWrite v) s

/-- `STATUS_RD` (R123). -/
def execStatusRd (s : State) : Result := hostAccess (fun t => .next (regRead .spiStatus t)) s

/-- `MISO_RD` (R124): the shift content, also during a transfer (log 19). -/
def execMisoRd (s : State) : Result := hostAccess (fun t => .next (regRead .spiMiso t)) s

/-- `CS_RD` (R125). -/
def execCsRd (s : State) : Result := hostAccess (fun t => .next (regRead .spiCs t)) s

/-- `MOSI_RD` (R126). -/
def execMosiRd (s : State) : Result := hostAccess (fun t => .next (regRead .spiMosi t)) s

/-- `CTRL_RD` (R127). -/
def execCtrlRd (s : State) : Result := hostAccess (fun t => .next (regRead .spiCtrl t)) s

/-- `STATUS_WR v` (R128): ignored. -/
def execStatusWr (v : BusWord) (s : State) : Result := hostAccess (fun t => .next (regIgnore .spiStatus v t)) s

/-- `MISO_WR v` (R129): ignored. -/
def execMisoWr (v : BusWord) (s : State) : Result := hostAccess (fun t => .next (regIgnore .spiMiso v t)) s

end Sys2Proof.Machine
end

