-- ==== Sys2Proof/Machine/Transfer.lean ====
section
/-! DEFINITION. The transfer agent's two steps and the wire command. -/

namespace Sys2Proof.Machine

open Sys2Proof

/-- `XFER_SHIFT` (R143). Where it is not enabled there is no such step to take (R11), and nothing happens (log 20). -/
def execXferShift (s : State) : Result :=
  if shiftEnabled s then .next (shiftStep s) else .next s

/-- `XFER_COMPLETE` (R145). Where it is not enabled nothing happens: an unanswered transfer hangs (R241, R256, log 20). -/
def execXferComplete (s : State) : Result :=
  if completeEnabled s then .next (completeStep s) else .next s

/-- `FLASH_READ` of address `a` (R150): one whole read frame at the device, which answers and keeps nothing (log 22). -/
def execFlashRead (a : FlashAddr) (s : State) : Result := .next (deviceFrame (outWord a) s)

end Sys2Proof.Machine
end

