-- ==== Sys2Proof/Machine/Dispatch.lean ====
section
/-! DEFINITION. The dispatch: one arm per operation. -/

namespace Sys2Proof.Machine

open Sys2Proof

def exec (i : Instr) (s : State) : Host.Outcome State Fault Refusal :=
  match i with
  | .readByte a => Sys2Proof.Machine.execReadByte a s
  | .loadIdentity => Sys2Proof.Machine.execLoadIdentity s
  | .csWr v => Sys2Proof.Machine.execCsWr v s
  | .mosiWr v => Sys2Proof.Machine.execMosiWr v s
  | .ctrlWr v => Sys2Proof.Machine.execCtrlWr v s
  | .statusRd => Sys2Proof.Machine.execStatusRd s
  | .misoRd => Sys2Proof.Machine.execMisoRd s
  | .csRd => Sys2Proof.Machine.execCsRd s
  | .mosiRd => Sys2Proof.Machine.execMosiRd s
  | .ctrlRd => Sys2Proof.Machine.execCtrlRd s
  | .statusWr v => Sys2Proof.Machine.execStatusWr v s
  | .misoWr v => Sys2Proof.Machine.execMisoWr v s
  | .xferShift => Sys2Proof.Machine.execXferShift s
  | .xferComplete => Sys2Proof.Machine.execXferComplete s
  | .flashRead a => Sys2Proof.Machine.execFlashRead a s
  | .idMacWr v => Sys2Proof.Machine.execIdMacWr v s
  | .idIpWr v => Sys2Proof.Machine.execIdIpWr v s

end Sys2Proof.Machine
end

