-- ==== Sys2Proof/Machine/Agents.lean ====
section
/-! DEFINITION. The agents' own turns: the sequencer's phases, the loader's request, the transfer agent, the Boot
Sequencer, reset; and a request presented. An agent without an enabled step lets its turn pass (log 21). -/

namespace Sys2Proof.Machine

open Sys2Proof

/-- A sequencer phase: perform a register write, then move on. -/
def thenPhase (p : TPhase) : Result → Result
  | .next s => .next { s with tPhase := p }
  | .fault r => .fault r
  | .refused r => .refused r

/-- Phase `T_POLL` (R175): one poll, without bound. -/
def pollStep (s : State) : State :=
  { regRead .spiStatus s with tPhase := if (statusValue s).getLsbD 0 then .resp else .poll }

/-- Phase `T_RESP` (R176): read the response, keep its low byte, deliver it in the same step. -/
def respStep (s : State) : State :=
  let b := respByte s.miso
  deliverByte b { regRead .spiMiso s with tData := b, tPhase := .idle }

/-- `TXN` (R172 to R176). -/
def sequencerTurn (s : State) : Result :=
  match s.tPhase with
  | .idle => .next s
  | .sel => thenPhase .cmd (csWrite 1 s)
  | .cmd => thenPhase .go (mosiWrite ((outWord s.tAddr).setWidth 64) s)
  | .go => thenPhase .poll (ctrlWrite goWord s)
  | .poll => .next (pollStep s)
  | .resp => .next (respStep s)

/-- `CRL` (R192): in `L_REQ` it hands its pointer to the idle sequencer; elsewhere it has no step of its own. -/
def loaderTurn (s : State) : Result :=
  if s.lPhase = .req ∧ s.tPhase = .idle then .next (requestByte s) else .next s

/-- `XFER` (R140): shift while bits remain, then complete when the device lets it. -/
def transferTurn (s : State) : Result :=
  if shiftEnabled s then .next (shiftStep s)
  else if completeEnabled s then .next (completeStep s)
  else .next s

/-- The host calls an external routine, which touches no state of the block. -/
def State.calls (s : State) (e : External) : State := { s with wires := { s.wires with external := some e } }

/-- `B_RESET -> B_IRQ` (R221). -/
def bootInterrupts (s : State) : State :=
  { (if hasIrq s then s.calls .interruptSetup else s) with bState := .irq }

/-- `B_IRQ -> B_CONSOLE` (R222). -/
def bootConsole (s : State) : State :=
  { (if hasUart s then s.calls .uartInit else s) with bState := .console }

/-- In `B_CONSOLE` (R223): offer the load once, when it will be accepted, then wait. -/
def bootLoad (s : State) : State :=
  if cmdReady s ∧ s.lPhase = .idle then acceptLoad s else s

/-- In `B_LOADED` (R224, R225): publish the MAC, then the IP, as received. -/
def bootPublish (s : State) : Result :=
  if s.idMac = none then idMacWrite s.macAcc s else idIpWrite (s.ipAcc.setWidth 64) s

/-- `B_PUBLISHED -> B_MEMREADY` (R228): the external routine may never return, and then holds the host until reset. -/
def bootMemory (s : State) : State :=
  let t := { s.calls .memInit with memCalls := s.memCalls + 1 }
  if memReturns s then { t with bState := .memReady } else { t with memHung := true }

/-- `B_MEMREADY -> B_IDLE` (R229). A run is over with no transfer in progress (R232): the host first sees complete a
transfer it started (R131). -/
def bootRest (s : State) : State := if s.busy then s else { s with bState := .idle }

/-- The transition out of the host's state (R221 to R229). -/
def bootMove (s : State) : Result :=
  match s.bState with
  | .reset => .next (bootInterrupts s)
  | .irq => .next (bootConsole s)
  | .console => .next (bootLoad s)
  | .loaded => bootPublish s
  | .published => .next (bootMemory s)
  | .memReady => .next (bootRest s)
  | .idle => .next s

/-- `HOST`, the Boot Sequencer (R220 to R229). Inside a block command no step of it falls (R72). -/
def bootTurn (s : State) : Result := if hostFree s then bootMove s else .next s

/-- One turn. -/
def takeTurn (t : Turn) (s : State) : Result :=
  match t with
  | .boot => bootTurn s
  | .loader => loaderTurn s
  | .sequencer => sequencerTurn s
  | .transfer => transferTurn s
  | .reset => .next (resetEvent s)

/-- The operation a request stands for on this machine. -/
def fetched (s : State) (q : Request) : Except DecodeError Instr := decode (resolve (addrMap s) q)

/-- Which requests are the host's: all but the internal steps and the wire (R13). -/
def fromHost (q : Request) : Bool :=
  match q.space with
  | .command => true
  | .write _ => true
  | .read _ => true
  | .part _ => true
  | .busWrite _ => true
  | .busRead _ => true
  | .wire => false
  | .shift => false
  | .complete => false

/-- What a request the decoder rejects comes to. A frame of another opcode is no operation of the table, but the spec
says what the device does with it: it drives nothing (R105 (e), R150, U8). -/
def rejected (e : DecodeError) (q : Request) (s : State) : Result :=
  match e with
  | .foreignFrame => .next (deviceFrame (wordOf q.word) s)
  | .addressTooWide => .refused .addressTooWide
  | .reservedCount => .refused .reservedCount
  | .reservedLength => .refused .reservedLength
  | .writeOnlyRead => .refused .writeOnlyRead
  | .partialAccess => .refused .partialAccess
  | .noRegister => .refused .noRegister
  | .frameTooLong => .refused .frameTooLong

/-- What a request comes to: its operation's meaning, or what its rejection comes to. -/
def answer (q : Request) (s : State) : Result :=
  match fetched s q with
  | .ok i => exec i s
  | .error e => rejected e q s

/-- The outcome of a request the host does not make: nothing changes. What is refused stays refused: R256 and U1 to U6
refuse in every state. -/
def unmade (s : State) : Result → Result
  | .next _ => .next s
  | .fault r => .fault r
  | .refused r => .refused r

/-- A presented request. A host without a further step makes no operation (R229, R228, log 37). -/
def perform (q : Request) (s : State) : Result :=
  if hostAtRest s ∧ fromHost q then unmade s (answer q s) else answer q s

/-- One event. -/
def runEvent (e : Event) (s : State) : Result :=
  match e with
  | .request q => perform q s
  | .turn t => takeTurn t s

/-- The event of the next step (R12): the head of the agenda, else the turn the free schedule gives. -/
def nextEvent (s : State) : Event :=
  match s.agenda with
  | e :: _ => e
  | [] => .turn (Config.schedule s.tick)

/-- A step begins: the wires of the step before are gone (R97: a response stands for exactly one step), and the event
is taken off the agenda or the schedule. -/
def State.advance (s : State) : State :=
  { s with
    wires := .quiet
    agenda := s.agenda.tail
    tick := if s.agenda = [] then s.tick + 1 else s.tick }

/-- The request is first in line, for the very next step (log 2, 3). -/
def State.present (s : State) (q : Request) : State := { s with agenda := .request q :: s.agenda }

end Sys2Proof.Machine
end

