-- ==== Sys2Proof/Machine/Step.lean ====
section
/-! DEFINITION. One step of the machine: the next event of the agenda, or a turn of the free schedule. -/

namespace Sys2Proof.Machine

open Sys2Proof

/-- One step (R12): one atomic action of one agent. -/
def step (s : State) : Host.Outcome State Fault Refusal := runEvent (nextEvent s) s.advance

/-- The instruction of a table word stands first in line (log 2, 3). -/
def State.withFetchWord (s : State) (nbits w : Nat) : State := s.present (tableRequest nbits w)

end Sys2Proof.Machine
end

