-- ==== Sys2Proof/Safety.lean ====
section
/-! DEFINITION. What claims are stated in: the invariants of the machine (R48 and what they rest on), the record, the
hang, the end of a run. -/

namespace Sys2Proof.Machine

open Sys2Proof

/-! ### The record -/

/-- `R[i]` of R64. -/
def recordByte (s : State) (i : Nat) : Byte := flashAt s (s.params.cfgBase + BitVec.ofNat 24 i)

/-- The number `{f 0, f 1, ..., f (n - 1)}`, first byte most significant, in `w` bits (R10, R67). -/
def bigEndian (w : Nat) (f : Nat → Byte) : Nat → BitVec w
  | 0 => 0
  | n + 1 => (bigEndian w f n <<< 8) ||| (f n).setWidth w

/-- `IP = {R[0], R[1], R[2], R[3]}` (R67, R197). -/
def recordIp (s : State) : BitVec 32 := recordByte s 0 ++ recordByte s 1 ++ recordByte s 2 ++ recordByte s 3

/-- `MAC = {16'd0, R[4], ..., R[9]}` (R99, R197). -/
def recordMac (s : State) : BitVec 64 :=
  (0 : BitVec 16) ++ recordByte s 4 ++ recordByte s 5 ++ recordByte s 6 ++ recordByte s 7 ++ recordByte s 8 ++
    recordByte s 9

/-! ### Invariants -/

/-- The phases and counters fit together: R48 (a) to (d) and (f), with what they rest on. R48 (b) bounds `CTRL.LENGTH`
by 40 in every state; R122 stores any length with a count of 0, so here the bound holds while a transfer runs (log 24). -/
structure ControlInv (s : State) : Prop where
  /-- R48 (a). -/
  busyNotDone : s.busy = true → s.done = false
  /-- R48 (b), while a transfer runs. -/
  busyBits : s.busy = true → s.bitcnt.toNat ≤ s.ctrlLength.toNat ∧ s.ctrlLength.toNat ≤ 40
  /-- R48 (b), at rest. -/
  restBits : s.busy = false → s.bitcnt = 0
  /-- A transfer is never started unselected (R122), and `CS` cannot change under it (R130). -/
  busySelected : s.busy = true → s.cs = true
  /-- R143: what is left to send is at the top of `TXSR`. -/
  busyTxsr : s.busy = true → s.txsr = s.mosi <<< (40 - s.bitcnt.toNat)
  /-- R48 (c). -/
  pointer : s.lPhase ≠ .idle →
    s.lPtr = s.params.cfgBase + s.lIdx.setWidth 24 ∧ s.lIdx.toNat ≤ 10 ∧ (s.lIdx = 10 ↔ s.lPhase = .done)
  /-- R48 (d). -/
  earlyAtRest : s.tPhase = .sel ∨ s.tPhase = .cmd ∨ s.tPhase = .go → s.busy = false
  /-- R172: after `T_SEL` the select enable is set. -/
  selected : s.tPhase = .cmd ∨ s.tPhase = .go ∨ s.tPhase = .poll ∨ s.tPhase = .resp → s.cs = true
  /-- R173: after `T_CMD` the output word is the read frame of `T_ADDR`. -/
  framed : s.tPhase = .go ∨ s.tPhase = .poll ∨ s.tPhase = .resp → s.mosi = outWord s.tAddr
  /-- R174: after `T_GO` the length is 40. -/
  length : s.tPhase = .poll ∨ s.tPhase = .resp → s.ctrlLength = 40
  /-- R175: in `T_POLL` the transfer runs or is complete. -/
  polling : s.tPhase = .poll → s.busy = true ∨ s.done = true
  /-- R175: `T_RESP` is entered with the transfer complete. -/
  complete : s.tPhase = .resp → s.busy = false ∧ s.done = true
  /-- R192: in `L_REQ` the sequencer is idle and no transfer runs. -/
  requesting : s.lPhase = .req → s.tPhase = .idle ∧ s.busy = false
  /-- R192, R193: in `L_WAIT` the loader's transaction is in progress. -/
  waiting : s.lPhase = .wait → s.tPhase ≠ .idle ∧ s.tAddr = s.lPtr

/-- The bits in flight and the accumulators are the flash's: R148, R199. -/
structure DataInv (s : State) : Prop where
  /-- R147, R150: with `n` periods left of an answered transfer, the low `8 - n` bits of `MISO` are the top bits of the
  byte. -/
  shifting : s.tPhase = .poll → s.busy = true → flashResponds s (s.tOrd - 1) = true →
    ∀ j, j + s.bitcnt.toNat < 8 → s.miso.getLsbD j = (flashAt s s.tAddr).getLsbD (j + s.bitcnt.toNat)
  /-- R148: after the transfer the low byte is the byte. -/
  received : s.tPhase = .poll ∨ s.tPhase = .resp → s.busy = false → respByte s.miso = flashAt s s.tAddr
  /-- R199, IP. -/
  ip : s.lPhase ≠ .idle → 1 ≤ s.lIdx.toNat → s.ipAcc = bigEndian 32 (recordByte s) (min s.lIdx.toNat 4)
  /-- R199, MAC. -/
  mac : s.lPhase ≠ .idle → 5 ≤ s.lIdx.toNat →
    s.macAcc = bigEndian 64 (fun i => recordByte s (i + 4)) (s.lIdx.toNat - 4)

/-- The host has received the identity (R223). -/
def hasLoaded (s : State) : Bool :=
  s.bState = .loaded ∨ s.bState = .published ∨ s.bState = .memReady ∨ s.bState = .idle

/-- The host has published (R224). -/
def hasPublished (s : State) : Bool := s.bState = .published ∨ s.bState = .memReady ∨ s.bState = .idle

/-- The host's state and the identity registers fit together (R223 to R229, R286). -/
structure HostInv (s : State) : Prop where
  /-- R223: `B_LOADED` comes with the load's response. -/
  loaded : hasLoaded s = true → s.lPhase = .done
  /-- R226: no MAC is written before `B_LOADED`. -/
  macLoaded : s.idMac ≠ none → hasLoaded s = true
  /-- R225: MAC before IP. -/
  macFirst : s.idIp ≠ none → s.idMac ≠ none
  /-- R227: the IP write is what publishes. -/
  ipPublishes : s.idIp ≠ none ↔ hasPublished s = true
  /-- R232: in `B_IDLE` no command and no transfer runs. -/
  atRest : s.bState = .idle → s.tPhase = .idle ∧ s.busy = false
  /-- R228: the call that does not return is made in `B_PUBLISHED`. -/
  held : s.memHung = true → s.bState = .published

/-- What is written is what was loaded (R233). -/
structure PubInv (s : State) : Prop where
  mac : ∀ v, s.idMac = some v → v = s.macAcc
  ip : ∀ v, s.idIp = some v → v = s.ipAcc

/-- The host passes what it received (R226, R227): a condition on what is presented, not on the machine. -/
def PassesReceived (s : State) : Prop :=
  ∀ q, nextEvent s = .request q →
    (∀ v, fetched s q = .ok (.idMacWr v) → v = s.macAcc) ∧
    (∀ v, fetched s q = .ok (.idIpWr v) → v.setWidth 32 = s.ipAcc)

/-! ### The hang and the end of a run -/

/-- The hang (R178, R241): polling a transfer the device does not answer. -/
def Hung (s : State) : Prop :=
  s.tPhase = .poll ∧ s.busy = true ∧ s.done = false ∧ flashResponds s (s.tOrd - 1) = false

/-- The end of a run (R232). -/
def Final (s : State) : Prop := s.bState = .idle

/-- The place of a host state in the order of R220. -/
def BState.rank : BState → Nat
  | .reset => 0
  | .irq => 1
  | .console => 2
  | .loaded => 3
  | .published => 4
  | .memReady => 5
  | .idle => 6

/-! ### Runs -/

/-- `n` steps. -/
def run (n : Nat) (s : State) : Result := Host.Core.run core n s

/-- A list of turns as events. -/
def turns (ts : List Turn) : List Event := ts.map .turn

/-- The turns of one whole transaction of the loader (R177, R192), with `ts` the shifts and the polls among them. -/
def loaderTransaction (ts : List Turn) : List Turn :=
  [.loader, .sequencer, .sequencer, .sequencer] ++ ts ++ [.transfer, .sequencer, .sequencer]

/-! ### Fair runs -/

/-- The state with these events to come. -/
def State.facing (s : State) (es : List Event) : State := { s with agenda := es }

/-- An infinite run along a sequence of events, every interleaving of the agents being one (R12): the step from the
`n`-th state takes the `n`-th event, and none stops the machine. -/
def Execution (e : Nat → Event) (f : Nat → State) : Prop :=
  ∀ n, step ((f n).facing [e n]) = .next ((f (n + 1)).facing [])

/-- The transfer agent has an enabled step (R143, R145). -/
def xferEnabled (s : State) : Bool := shiftEnabled s || completeEnabled s

/-- The event is a step of the transfer agent: its turn, or its enabled step asked for. -/
def takesXfer (e : Event) (s : State) : Prop :=
  e = .turn .transfer ∨
    ∃ q, e = .request q ∧
      (fetched s q = .ok .xferShift ∧ shiftEnabled s = true ∨
        fetched s q = .ok .xferComplete ∧ completeEnabled s = true)

/-- Weak fairness of the transfer agent (R146): a step that stays enabled is eventually taken. -/
def WeaklyFair (e : Nat → Event) (f : Nat → State) : Prop :=
  ∀ n, (∀ m, n ≤ m → xferEnabled (f m) = true) → ∃ m, n ≤ m ∧ takesXfer (e m) (f m)

end Sys2Proof.Machine
end

