-- ==== Sys2Proof/Certificates/Slice0/Obligations.lean ====
section
/-! DEFINITION. The statements for the provers. Each docstring names the rules of `spec/` it formalises. -/

open Sys2Proof Sys2Proof.Machine

/-! ### The operations of the table, one by one -/

/-- R171 (decision D3), with R96: `READ_BYTE a` offered by the host latches the address and enters `T_SEL` when
`cmd_ready` = 1, and is ignored otherwise; `cmd_ready` is 0 from the acceptance on, in every phase but `T_IDLE`. -/
def Obligations.ReadByteAcceptedOrIgnored : Prop :=
  ∀ (a : FlashAddr) (s : State),
    (s.tPhase = .idle ∧ (s.lPhase = .idle ∨ s.lPhase = .done) ∧ s.busy = false →
      ∃ t, exec (.readByte a) s = .next t ∧ t = { s with tAddr := a, tPhase := .sel } ∧ cmdReady t = false) ∧
    (¬ (s.tPhase = .idle ∧ (s.lPhase = .idle ∨ s.lPhase = .done) ∧ s.busy = false) →
      exec (.readByte a) s = .next s) ∧
    (s.tPhase ≠ .idle → cmdReady s = false)

/-- R191 (decisions D31, D33), with R190: `LOAD_IDENTITY` is accepted in `L_IDLE` when `cmd_ready` = 1, with the
accumulators untouched, and ignored in every other state; `cmd_ready` is 0 while the load runs. -/
def Obligations.LoadIdentityAcceptedOnce : Prop :=
  ∀ s : State,
    (s.tPhase = .idle ∧ s.lPhase = .idle ∧ s.busy = false →
      exec .loadIdentity s = .next { s with lIdx := 0, lPtr := s.params.cfgBase, lPhase := .req }) ∧
    (¬ (s.tPhase = .idle ∧ s.lPhase = .idle ∧ s.busy = false) → exec .loadIdentity s = .next s) ∧
    (s.lPhase = .req ∨ s.lPhase = .wait → cmdReady s = false)

/-- R120 (decision D9): an entitled `CS_WR v` at rest stores bit 0 and changes nothing else. -/
def Obligations.CsWriteStoresBitZero : Prop :=
  ∀ (v : BusWord) (s : State), hostEntitled s = true → s.busy = false →
    exec (.csWr v) s =
      .next { s with cs := v.getLsbD 0, wires := { s.wires with access := some (.wrote .spiCs v) } }

/-- R121 (decision D5): an entitled `MOSI_WR v` at rest stores bits 39 to 0 and sends nothing. -/
def Obligations.MosiWriteStoresWord : Prop :=
  ∀ (v : BusWord) (s : State), hostEntitled s = true → s.busy = false →
    exec (.mosiWr v) s =
      .next { s with mosi := v.setWidth 40, wires := { s.wires with access := some (.wrote .spiMosi v) } }

/-- R122 (decisions D6, D7, D8, D11, D23): all five cases of an entitled `CTRL_WR v` at rest. -/
def Obligations.CtrlWriteAllCases : Prop :=
  ∀ (v : BusWord) (s : State) (len cnt : Byte), hostEntitled s = true → s.busy = false →
    len = v.extractLsb' 8 8 → cnt = v.extractLsb' 0 8 →
    (cnt = 0 → exec (.ctrlWr v) s =
      .next { s with ctrlLength := len, wires := { s.wires with access := some (.wrote .spiCtrl v) } }) ∧
    (cnt = 1 → 1 ≤ len.toNat → len.toNat ≤ 40 → s.cs = true → ∃ t, exec (.ctrlWr v) s = .next t ∧
      t = { s with
            ctrlLength := len, txsr := s.mosi <<< (40 - len.toNat), bitcnt := len.setWidth 6, busy := true,
            done := false, tOrd := s.tOrd + 1, wires := { s.wires with access := some (.wrote .spiCtrl v) } } ∧
      t.bitcnt.toNat = len.toNat) ∧
    (cnt = 1 → 1 ≤ len.toNat → len.toNat ≤ 40 → s.cs = false → exec (.ctrlWr v) s = .refused .startUnselected) ∧
    (cnt = 1 → len = 0 ∨ 40 < len.toNat → exec (.ctrlWr v) s = .refused .reservedLength) ∧
    (2 ≤ cnt.toNat → exec (.ctrlWr v) s = .refused .reservedCount)

/-- R123 (decision D11): an entitled `STATUS_RD` returns 1 when `DONE` = 1 and 0 otherwise, in a transfer too, and
changes nothing. -/
def Obligations.StatusReadReturnsDone : Prop :=
  ∀ s : State, hostEntitled s = true →
    exec .statusRd s =
      .next { s with wires := { s.wires with access := some (.got .spiStatus (if s.done then 1 else 0)) } }

/-- R124 (decision D12), R73: an entitled `MISO_RD` returns the response register and changes nothing. -/
def Obligations.MisoReadReturnsResponse : Prop :=
  ∀ s : State, hostEntitled s = true →
    exec .misoRd s = .next { s with wires := { s.wires with access := some (.got .spiMiso (s.miso.setWidth 64)) } }

/-- R125, R126, R127 (decision D21): the read-backs return the stored enable, the last written word, and the length
over a zero count; none changes anything. -/
def Obligations.ReadBacksReturnStored : Prop :=
  ∀ s : State, hostEntitled s = true →
    exec .csRd s =
      .next { s with wires := { s.wires with access := some (.got .spiCs (if s.cs then 1 else 0)) } } ∧
    exec .mosiRd s = .next { s with wires := { s.wires with access := some (.got .spiMosi (s.mosi.setWidth 64)) } } ∧
    exec .ctrlRd s =
      .next { s with wires := { s.wires with
        access := some (.got .spiCtrl ((s.ctrlLength ++ (0 : BitVec 8)).setWidth 64)) } }

/-- R128, R129 (decision D21): writes of the read-only registers are ignored; only the access is seen on the
register interface (the model's own record, log 13). -/
def Obligations.ReadOnlyWritesIgnored : Prop :=
  ∀ (v : BusWord) (s : State), hostEntitled s = true →
    exec (.statusWr v) s = .next { s with wires := { s.wires with access := some (.wrote .spiStatus v) } } ∧
    exec (.misoWr v) s = .next { s with wires := { s.wires with access := some (.wrote .spiMiso v) } }

/-- R130 (decision D22): while `BUSY` = 1 the three writes are refused; the reads and the ignored writes are performed
then too and change nothing but what the register interface shows (the model's own record, log 13). -/
def Obligations.BusyGatesOnlyWrites : Prop :=
  ∀ (v : BusWord) (s : State), hostEntitled s = true → s.busy = true →
    (∀ i ∈ [Instr.csWr v, .mosiWr v, .ctrlWr v], exec i s = .refused .writeWhileBusy) ∧
    (∀ i ∈ [Instr.statusRd, .misoRd, .csRd, .mosiRd, .ctrlRd, .statusWr v, .misoWr v],
      ∃ t, exec i s = .next t ∧ { t with wires := s.wires } = s)

/-- R131 (decision D20), R72: a host register access while a block command runs is refused, the twelve alike, the
identity registers included (logs 18 and 36). -/
def Obligations.HostRefusedDuringCommand : Prop :=
  ∀ (v : BusWord) (s : State), s.tPhase ≠ .idle ∨ s.lPhase = .req ∨ s.lPhase = .wait →
    ∀ i ∈ [Instr.csWr v, .mosiWr v, .ctrlWr v, .statusRd, .misoRd, .csRd, .mosiRd, .ctrlRd, .statusWr v, .misoWr v,
        .idMacWr v, .idIpWr v],
      exec i s = .refused .notEntitled

/-- R143 (decisions D12, D14), R144: the registers shift, the sample enters at bit 0, the count goes down, `DONE` and
`BUSY` stay, and nothing else changes but the draw index and the wires. The sample is the device's bit where the device
drives one, and else a draw: a device that does not answer this transfer drives none (R152, P4), one that does follows
R150. With the invariant the driven bit is `MOSI[LENGTH - 1 - t]`. -/
def Obligations.ShiftMovesOneBit : Prop :=
  ∀ s : State, s.busy = true → s.bitcnt ≠ 0 →
    (∃ t m, exec .xferShift s = .next t ∧
      (∀ b, devSample s = some b → m = b) ∧ (devSample s = none → m = drawAt s s.drawIdx) ∧
      t = { s with
            txsr := s.txsr <<< 1, miso := (s.miso <<< 1) ||| (BitVec.ofBool m).setWidth 40, bitcnt := s.bitcnt - 1,
            drawIdx := s.drawIdx + (if devSample s = none then 1 else 0),
            wires := { s.wires with mosiBit := some (s.txsr.getLsbD 39), misoBit := some m } } ∧
      t.bitcnt.toNat + 1 = s.bitcnt.toNat) ∧
    (flashResponds s (s.tOrd - 1) = false → devSample s = none) ∧
    (flashResponds s (s.tOrd - 1) = true → s.cs = true →
      devSample s = devOut (flashAt s) s.mosi s.ctrlLength.toNat (s.ctrlLength.toNat - s.bitcnt.toNat)) ∧
    (ControlInv s → s.txsr.getLsbD 39 = s.mosi.getLsbD (s.ctrlLength.toNat - 1 - bitTime s))

/-- R145 (decisions D11, D24): `XFER_COMPLETE` clears `BUSY` and sets `DONE`; the select line goes inactive. With the
invariant `TXSR` is zero then. -/
def Obligations.CompleteSetsDone : Prop :=
  ∀ s : State, s.busy = true → s.bitcnt = 0 → flashResponds s (s.tOrd - 1) = true →
    ∃ t, exec .xferComplete s = .next t ∧ t = { s with busy := false, done := true } ∧ sel t = false ∧
      (ControlInv s → t.txsr = 0)

/-- The model's reading (log 20) of R11 and R256, which know no fault: the internal steps asked for where R143 and R145
do not enable them change nothing, in every such state, an unanswered transfer after its last bit included. -/
def Obligations.DisabledInternalStepsChangeNothing : Prop :=
  ∀ s : State,
    (s.busy = false ∨ s.bitcnt = 0 → exec .xferShift s = .next s) ∧
    (s.busy = false ∨ s.bitcnt ≠ 0 ∨ flashResponds s (s.tOrd - 1) = false → exec .xferComplete s = .next s)

/-- R150 at the level of whole frames (the form is the model's, log 22): `FLASH_READ a` shows `Flash(a)` on the wire,
in every state, after 32 drawn samples, and changes nothing else but the draw index; the device has no side effect. -/
def Obligations.FlashReadAnswersByte : Prop :=
  ∀ (a : FlashAddr) (s : State), ∃ f : Frame,
    exec (.flashRead a) s = .next { s with
      drawIdx := s.drawIdx + 40, wires := { s.wires with devByte := some (flashAt s a), samples := some f } } ∧
    f.setWidth 8 = flashAt s a ∧ ∀ t < 32, f.getLsbD (39 - t) = drawAt s (s.drawIdx + t)

/-- R105 (e), R150, U8, for a frame presented whole (the form is the model's, logs 22 and 31): after an opcode other than
0x03 the device drives nothing, so all forty samples are draws, and nothing else changes but the draw index. -/
def Obligations.ForeignFrameAllDraws : Prop :=
  ∀ (s : State) (w : BusWord), nextEvent s = .request ⟨.wire, w⟩ → w.toNat < 2 ^ 40 →
    w.extractLsb' 32 8 ≠ 0x03 →
    ∃ f : Frame, step s = .next { s.advance with
        drawIdx := s.drawIdx + 40, wires := { Wires.quiet with devByte := none, samples := some f } } ∧
      ∀ t < 40, f.getLsbD (39 - t) = drawAt s (s.drawIdx + t)

/-- R226 (decisions D17, D30), outside a block command (R72): `ID_MAC_WR v` in `B_LOADED` with `ID_MAC` unwritten stores
the whole value and changes nothing else. -/
def Obligations.MacWriteStores : Prop :=
  ∀ (v : BusWord) (s : State), hostEntitled s = true → s.bState = .loaded → s.idMac = none →
    exec (.idMacWr v) s =
      .next { s with idMac := some v, wires := { s.wires with access := some (.wrote .idMac v) } }

/-- R227 (decision D30), outside a block command (R72): `ID_IP_WR v` in `B_LOADED` with `ID_MAC` written and `ID_IP`
unwritten stores 32 bits, and takes the host to `B_PUBLISHED`. -/
def Obligations.IpWriteStoresAndPublishes : Prop :=
  ∀ (v : BusWord) (s : State), hostEntitled s = true → s.bState = .loaded → s.idMac ≠ none → s.idIp = none →
    exec (.idIpWr v) s =
      .next { s with
        idIp := some (v.setWidth 32), bState := .published,
        wires := { s.wires with access := some (.wrote .idIp v) } }

/-- R226, R227, R225, R43: outside a block command a second write, a write in another host state and an IP write before
the MAC are refused. Which name is reported first is the model's choice (log 30). -/
def Obligations.IdentityWritesRefused : Prop :=
  ∀ (v : BusWord) (s : State), hostEntitled s = true →
    (s.idMac ≠ none → exec (.idMacWr v) s = .refused .identityRewrite) ∧
    (s.idMac = none → s.bState ≠ .loaded → exec (.idMacWr v) s = .refused .identityNotLoaded) ∧
    (s.idIp ≠ none → exec (.idIpWr v) s = .refused .identityRewrite) ∧
    (s.idIp = none → s.bState ≠ .loaded → exec (.idIpWr v) s = .refused .identityNotLoaded) ∧
    (s.idIp = none → s.bState = .loaded → s.idMac = none → exec (.idIpWr v) s = .refused .ipBeforeMac)

/-! ### The sequencer, the loader, the host, reset -/

/-- R172, R173, R174: the three writing phases of a transaction perform exactly their register write, never refused,
and move on. -/
def Obligations.SequencerWritesInOrder : Prop :=
  ∀ s : State, ControlInv s →
    (s.tPhase = .sel → takeTurn .sequencer s =
      .next { s with cs := true, tPhase := .cmd, wires := { s.wires with access := some (.wrote .spiCs 1) } }) ∧
    (s.tPhase = .cmd → ∀ w, w = (0x03 : BitVec 8) ++ s.tAddr ++ (0x00 : BitVec 8) → takeTurn .sequencer s =
      .next { s with
        mosi := w, tPhase := .go, wires := { s.wires with access := some (.wrote .spiMosi (w.setWidth 64)) } }) ∧
    (s.tPhase = .go → takeTurn .sequencer s =
      .next { s with
        ctrlLength := 40, txsr := s.mosi, bitcnt := 40, busy := true, done := false, tOrd := s.tOrd + 1,
        tPhase := .poll, wires := { s.wires with access := some (.wrote .spiCtrl 0x2801) } })

/-- R175 (decision D27): a poll reads the status, changes nothing else, and leaves `T_POLL` only when `DONE` = 1. It is
enabled in every state with `T_PHASE` = `T_POLL`, so there is no bound on the polls. -/
def Obligations.PollLeavesOnlyOnDone : Prop :=
  ∀ s : State, s.tPhase = .poll → takeTurn .sequencer s =
    .next { s with
      tPhase := if s.done = true then .resp else .poll,
      wires := { s.wires with access := some (.got .spiStatus (if s.done then 1 else 0)) } }

/-- R176 (decisions D35, D40), for a transaction of the host: the low byte is latched and delivered on the response
port in the same step. -/
def Obligations.ResponseDeliveredToHost : Prop :=
  ∀ s : State, s.tPhase = .resp → s.lPhase ≠ .wait → takeTurn .sequencer s =
    .next { s with
      tData := s.miso.setWidth 8, tPhase := .idle,
      wires := { s.wires with
        access := some (.got .spiMiso (s.miso.setWidth 64)), rsp := some (.byte (s.miso.setWidth 8)) } }

/-- R193 (decision D16), R195, R196 (decision D17): in `L_WAIT` the loader has no step of its own; in the step that
delivers a byte exactly one accumulator takes it, and index and pointer advance. After the first nine bytes the loader
asks for the next one. With the tenth it is done and delivers (R194), and a host waiting for it in `B_CONSOLE` enters
`B_LOADED` (R223). -/
def Obligations.LoaderConsumesByte : Prop :=
  ∀ (s : State) (b : Byte), s.lPhase = .wait → b = s.miso.setWidth 8 →
    (s.tPhase = .resp → s.lIdx.toNat < 9 → takeTurn .sequencer s =
      .next { s with
        tData := b, tPhase := .idle, lPhase := .req, lIdx := s.lIdx + 1, lPtr := s.lPtr + 1,
        ipAcc := if s.lIdx = 0 then b.setWidth 32
          else if s.lIdx.toNat ≤ 3 then (s.ipAcc <<< 8) ||| b.setWidth 32 else s.ipAcc,
        macAcc := if s.lIdx.toNat ≤ 3 then s.macAcc
          else if s.lIdx = 4 then b.setWidth 64 else (s.macAcc <<< 8) ||| b.setWidth 64,
        wires := { s.wires with access := some (.got .spiMiso (s.miso.setWidth 64)) } }) ∧
    (s.tPhase = .resp → s.lIdx = 9 → ∀ mac, mac = (s.macAcc <<< 8) ||| b.setWidth 64 →
      ∃ t, takeTurn .sequencer s = .next t ∧
        t = { s with
          tData := b, tPhase := .idle, lPhase := .done, lIdx := 10, lPtr := s.lPtr + 1, macAcc := mac,
          bState := t.bState,
          wires := { s.wires with
            access := some (.got .spiMiso (s.miso.setWidth 64)), rsp := some (.identity s.ipAcc mac) } } ∧
        idValid t = true ∧ (s.bState = .console → t.bState = .loaded)) ∧
    takeTurn .loader s = .next s

/-- The model's choice (log 23) where R223 speaks of `B_CONSOLE` only: no other host state moves with the response of the
load, nor with any other step of the sequencer. -/
def Obligations.ResponseMovesWaitingHostOnly : Prop :=
  ∀ s t : State, takeTurn .sequencer s = .next t →
    t.bState = s.bState ∨ (s.bState = .console ∧ t.bState = .loaded ∧ t.lPhase = .done ∧ s.lIdx = 9)

/-- R192 (decision D2): in `L_REQ` the sequencer is idle and the index at most 9; the loader hands its pointer over,
all 24 bits, and waits. -/
def Obligations.LoaderRequestsAtPointer : Prop :=
  ∀ s : State, ControlInv s → s.lPhase = .req →
    s.tPhase = .idle ∧ s.lIdx.toNat ≤ 9 ∧
    takeTurn .loader s = .next { s with tAddr := s.lPtr, tPhase := .sel, lPhase := .wait }

/-- R221, R222, R228, R229: the opaque host steps change `B_STATE` only, and call their routine exactly when the build
has it. Whether this call of the memory routine returns is free (log 9); one that does not return holds the host. No step
of the host falls inside a block command (R72, log 36), nor after a call that does not return; `B_IDLE` is entered with
no transfer running (R232). -/
def Obligations.BootOpaqueSteps : Prop :=
  ∀ s : State,
    (hostEntitled s = true → s.memHung = false →
      (s.bState = .reset → takeTurn .boot s =
        .next { s with
          bState := .irq,
          wires := { s.wires with external := if hasIrq s then some .interruptSetup else s.wires.external } }) ∧
      (s.bState = .irq → takeTurn .boot s =
        .next { s with
          bState := .console,
          wires := { s.wires with external := if hasUart s then some .uartInit else s.wires.external } }) ∧
      (s.bState = .published → takeTurn .boot s =
        .next { s with
          bState := if memReturns s then .memReady else .published,
          memCalls := s.memCalls + 1, memHung := !memReturns s,
          wires := { s.wires with external := some .memInit } }) ∧
      (s.bState = .memReady → s.busy = false → takeTurn .boot s = .next { s with bState := .idle }) ∧
      (s.bState = .memReady → s.busy = true → takeTurn .boot s = .next s) ∧
      (s.bState = .idle → takeTurn .boot s = .next s)) ∧
    (hostEntitled s = false ∨ s.memHung = true → takeTurn .boot s = .next s)

/-- R223: in `B_CONSOLE` the host offers the load. The model's choice (log 33): its own turn offers it when it will be
accepted, and else waits. -/
def Obligations.BootOffersLoad : Prop :=
  ∀ s : State, s.memHung = false → s.bState = .console →
    (cmdReady s = true ∧ s.lPhase = .idle → ∃ t, takeTurn .boot s = .next t ∧ exec .loadIdentity s = .next t ∧
      t.lPhase = .req) ∧
    (¬ (cmdReady s = true ∧ s.lPhase = .idle) → takeTurn .boot s = .next s)

/-- R224: in `B_LOADED`, outside a block command (R72), the host writes the MAC it received, then, in a second step, the
IP, and is then in `B_PUBLISHED`. -/
def Obligations.BootPublishesMacThenIp : Prop :=
  ∀ s : State, hostFree s = true → s.bState = .loaded →
    (s.idMac = none → takeTurn .boot s =
      .next { s with
        idMac := some s.macAcc, wires := { s.wires with access := some (.wrote .idMac s.macAcc) } }) ∧
    (s.idMac ≠ none → s.idIp = none → takeTurn .boot s =
      .next { s with
        idIp := some s.ipAcc, bState := .published,
        wires := { s.wires with access := some (.wrote .idIp (s.ipAcc.setWidth 64)) } })

/-- R270, R271 (every value is the spec's decision D18): a reset step from any state leaves every piece of R20's state
at its reset value, aborts whatever ran, and keeps the flash. -/
def Obligations.ResetWinsFromAnyState : Prop :=
  ∀ s : State, nextEvent s = .turn .reset → ∃ t, step s = .next t ∧
    t.cs = false ∧ t.mosi = 0 ∧ t.ctrlLength = 0 ∧ t.done = false ∧ t.miso = 0 ∧ t.txsr = 0 ∧ t.bitcnt = 0 ∧
    t.busy = false ∧ t.tPhase = .idle ∧ t.tAddr = 0 ∧ t.tData = 0 ∧ t.tOrd = 0 ∧ t.lPhase = .idle ∧ t.lIdx = 0 ∧
    t.lPtr = 0 ∧ t.ipAcc = 0 ∧ t.macAcc = 0 ∧ t.idMac = none ∧ t.idIp = none ∧ t.bState = .reset ∧
    t.memHung = false ∧
    sel t = false ∧ cmdReady t = true ∧ idValid t = false ∧ t.wires.rsp = none ∧ ∀ a, flashAt t a = flashAt s a

/-! ### The step and the encodings -/

/-- The next event is a request that decodes to `i`: the step is `exec i` on the state with the event taken off and the
wires quiet; but a request of a host without a further step (R229, R228; log 37) that `exec i` does not refuse changes
nothing else, and one that it refuses is refused (R256). -/
def Obligations.StepRunsDecoded : Prop :=
  ∀ (s u : State) (q : Request) (i : Instr), nextEvent s = .request q → fetched s q = .ok i →
    u = { s with
      wires := .quiet, agenda := s.agenda.tail, tick := if s.agenda = [] then s.tick + 1 else s.tick } →
    (hostAtRest s = false ∨ fromHost q = false → step s = exec i u) ∧
    (hostAtRest s = true → fromHost q = true →
      (∀ t, exec i u = .next t → step s = .next u) ∧ ∀ r, exec i u = .refused r → step s = .refused r)

/-- What a request is refused for before any operation is performed, in every state (R256): R105 (a) and (b), R43, R70, R63. The refusal of a
command word of 2^25 or more is the model's own encoding of R101's address out of range (log 12, DESIGN CHOICE: the spec
gives the command port 25 bits and says nothing of a wider word), the name given before `BUSY` and entitlement are
looked at is log 32, and the frame of more than 40 bits is log 31. -/
def Obligations.StepRefusesRejected : Prop :=
  ∀ (s : State) (w : BusWord),
    (nextEvent s = .request ⟨.command, w⟩ → 2 ^ 25 ≤ w.toNat → step s = .refused .addressTooWide) ∧
    (nextEvent s = .request ⟨.write .spiCtrl, w⟩ → 2 ≤ (w.extractLsb' 0 8).toNat →
      step s = .refused .reservedCount) ∧
    (nextEvent s = .request ⟨.write .spiCtrl, w⟩ → w.extractLsb' 0 8 = 1 →
      w.extractLsb' 8 8 = 0 ∨ 40 < (w.extractLsb' 8 8).toNat → step s = .refused .reservedLength) ∧
    (∀ r ∈ [Reg.idMac, .idIp], nextEvent s = .request ⟨.read r, w⟩ → step s = .refused .writeOnlyRead) ∧
    (∀ r, nextEvent s = .request ⟨.part r, w⟩ → step s = .refused .partialAccess) ∧
    (∀ a, (∀ r, (addrMap s).addr r ≠ a) →
      nextEvent s = .request ⟨.busWrite a, w⟩ ∨ nextEvent s = .request ⟨.busRead a, w⟩ →
      step s = .refused .noRegister) ∧
    (nextEvent s = .request ⟨.wire, w⟩ → 2 ^ 40 ≤ w.toNat → step s = .refused .frameTooLong)

/-- Words written out from the encodings of R91, R92, R96 and V6 decode to the operations they stand for. In the last two
clauses the words are the spec's, but that a word of 32 bits is one of the command port is the model's choice (log 2,
DESIGN CHOICE): a word of the opcode table names no space, so its width picks it. -/
def Obligations.SpecWordsDecode : Prop :=
  decode ⟨.command, 0x03D0900⟩ = .ok (.readByte 0x3D0900) ∧
  decode ⟨.command, 0x1ABCDEF⟩ = .ok .loadIdentity ∧
  decode ⟨.wire, 0x033D090000⟩ = .ok (.flashRead 0x3D0900) ∧
  decode ⟨.write .spiCtrl, 0x2801⟩ = .ok (.ctrlWr 0x2801) ∧
  decodeTableWord 32 0x03D0900 = some (.readByte 0x3D0900) ∧
  decodeTableWord 32 0x1000000 = some .loadIdentity

/-- Decode and encode agree: every well-formed operation, with every operand value, is what its request decodes to. -/
def Obligations.DecodeEncodeAgree : Prop :=
  ∀ i : Instr, WellFormed i = true → decode (encode i) = .ok i

/-- The decoder answers well-formed operations only, and a request has one meaning: two operations whose requests are
equal are equal. -/
def Obligations.DecodedAreWellFormed : Prop :=
  (∀ (q : Request) (i : Instr), decode q = .ok i → WellFormed i = true) ∧
  ∀ i j : Instr, WellFormed i = true → WellFormed j = true → encode i = encode j → i = j

/-- R63 (decision D19): with pairwise distinct addresses a bus access at a register's address is the access to that
register, and an address of none of the seven is refused. -/
def Obligations.BusAddressSelectsRegister : Prop :=
  ∀ m : AddrMap, (∀ r r', m.addr r = m.addr r' → r = r') → ∀ w : BusWord,
    (∀ r, decode (resolve m ⟨.busWrite (m.addr r), w⟩) = decode ⟨.write r, w⟩) ∧
    (∀ r, decode (resolve m ⟨.busRead (m.addr r), w⟩) = decode ⟨.read r, w⟩) ∧
    (∀ a, (∀ r, m.addr r ≠ a) → decode (resolve m ⟨.busWrite a, w⟩) = .error .noRegister ∧
      decode (resolve m ⟨.busRead a, w⟩) = .error .noRegister)

/-- R100 (decision D13): the outgoing word is the opcode shifted left by 32 over the zero-extended, unscaled address
shifted left by 8; it matches the frame's mask (R91) and carries the address at bits 31 to 8. -/
def Obligations.OutWordIsReadFrame : Prop :=
  ∀ a : FlashAddr, outWord a = (0x03 : Frame) <<< 32 ||| a.setWidth 40 <<< 8 ∧
    outWord a &&& 0xFF000000FF = 0x0300000000 ∧ (outWord a).extractLsb' 8 24 = a

/-- R150 (decision D25): in a frame whose first eight driven bits are 0x03 and whose next 24 are `a`, the device drives
`Flash(a)`, bit 7 first, in periods 32 to 39, and nothing before; after any other opcode it drives nothing. The driven
bit at time `u` is `mosi[len - 1 - u]` (R143). -/
def Obligations.DeviceKeepsContract : Prop :=
  ∀ (flash : FlashAddr → Byte) (mosi : Frame) (len t : Nat) (a : FlashAddr), len ≤ 40 → t < len →
    (t < 32 → devOut flash mosi len t = none) ∧
    (32 ≤ t → (∀ u < 8, mosi.getLsbD (len - 1 - u) = (0x03 : BitVec 8).getLsbD (7 - u)) →
      (∀ u < 24, mosi.getLsbD (len - 1 - (8 + u)) = a.getLsbD (23 - u)) →
      devOut flash mosi len t = some ((flash a).getLsbD (39 - t))) ∧
    (32 ≤ t → (∃ u < 8, mosi.getLsbD (len - 1 - u) ≠ (0x03 : BitVec 8).getLsbD (7 - u)) →
      devOut flash mosi len t = none)

/-- R195, R196, R67: the accumulation rules put the first byte of a field on top, whatever the accumulator held. -/
def Obligations.AccumulationIsBigEndian : Prop :=
  (∀ (acc : BitVec 32) (b0 b1 b2 b3 : Byte),
    ipNext (ipNext (ipNext (ipNext acc 0 b0) 1 b1) 2 b2) 3 b3 = b0 ++ b1 ++ b2 ++ b3) ∧
  (∀ (acc : BitVec 64) (b4 b5 b6 b7 b8 b9 : Byte),
    macNext (macNext (macNext (macNext (macNext (macNext acc 4 b4) 5 b5) 6 b6) 7 b7) 8 b8) 9 b9 =
      (0 : BitVec 16) ++ b4 ++ b5 ++ b6 ++ b7 ++ b8 ++ b9)

/-! ### What every step keeps -/

/-- The invariants hold at reset. -/
def Obligations.InvariantsHoldAtReset : Prop :=
  ControlInv State.reset ∧ DataInv State.reset ∧ HostInv State.reset ∧ PubInv State.reset ∧
    Memory.wf State.reset.flash = true

/-- R48 (a) to (d), (f), and what they rest on: kept by every step, whatever the event and the schedule. -/
def Obligations.EveryStepKeepsControl : Prop :=
  ∀ s t : State, ControlInv s → step s = .next t → ControlInv t

/-- R148, R199: the bits in flight and the accumulators stay the flash's, whatever the event, the schedule, the draws
and the number of polls. -/
def Obligations.EveryStepKeepsData : Prop :=
  ∀ s t : State, ControlInv s → DataInv s → step s = .next t → DataInv t

/-- R223 to R229, R232, R286: the host's state, the load, the identity registers and the block at rest stay in step. -/
def Obligations.EveryStepKeepsHostOrder : Prop :=
  ∀ s t : State, HostInv s → step s = .next t → HostInv t

/-- R233: if the host passes what it received, the identity registers hold exactly the accumulators, in every state a
step leads to. -/
def Obligations.PublishedIsWhatWasLoaded : Prop :=
  ∀ s t : State, HostInv s → PubInv s → PassesReceived s → step s = .next t →
    PubInv t ∧ (hasPublished t = true → t.idMac = some t.macAcc ∧ t.idIp = some t.ipAcc)

/-- R48 (e), R196: when the load is done, bits 63 to 48 of the MAC accumulator are zero. -/
def Obligations.LoadedMacHasZeroTop : Prop :=
  ∀ s : State, ControlInv s → DataInv s → s.lPhase = .done → s.macAcc.extractLsb' 48 16 = 0

/-- R148, R177, R197, R205: every byte the block delivers is the flash's byte at the address asked for, and every
identity it delivers is the record's, first byte of each field on top, whatever happened in between. -/
def Obligations.DeliveredIsFromFlash : Prop :=
  ∀ s t : State, ControlInv s → DataInv s → step s = .next t →
    (∀ b, t.wires.rsp = some (.byte b) → b = flashAt s s.tAddr ∧ t.tData = b) ∧
    (∀ ip mac, t.wires.rsp = some (.identity ip mac) → ip = recordIp s ∧ mac = recordMac s ∧
      t.ipAcc = ip ∧ t.macAcc = mac)

/-- R97, R176, R194: a response appears only in a sequencer step from `T_RESP`, a byte when the loader did not ask, an
identity when it asked for its tenth byte. -/
def Obligations.ResponseOnlyOnDelivery : Prop :=
  ∀ (s t : State) (r : Response), step s = .next t → t.wires.rsp = some r →
    nextEvent s = .turn .sequencer ∧ s.tPhase = .resp ∧
    ((∃ b, r = .byte b) ∧ s.lPhase ≠ .wait ∨ (∃ ip mac, r = .identity ip mac) ∧ s.lPhase = .wait ∧ s.lIdx = 9)

/-- R39, R194: once the load is done, the accumulators and `ID_VALID` change by reset only. -/
def Obligations.LoadedIdentityStays : Prop :=
  ∀ s t : State, s.lPhase = .done → nextEvent s ≠ .turn .reset → step s = .next t →
    t.lPhase = .done ∧ t.ipAcc = s.ipAcc ∧ t.macAcc = s.macAcc

/-- R62 (decision D26): no step changes the flash, nor a parameter of the run. -/
def Obligations.FlashIsNeverWritten : Prop :=
  ∀ s t : State, step s = .next t →
    (∀ a, flashAt t a = flashAt s a) ∧ t.params = s.params ∧ (Memory.wf s.flash = true → Memory.wf t.flash = true)

/-- R24, R42: `DONE` is set only by the completion of a running transfer and cleared only by the start of one or by
reset. -/
def Obligations.DoneChangesOnlyAsStated : Prop :=
  ∀ s t : State, step s = .next t →
    (s.done = false → t.done = true → completeEnabled s = true ∧ t.busy = false) ∧
    (s.done = true → t.done = false →
      nextEvent s = .turn .reset ∨ (s.busy = false ∧ t.busy = true ∧ t.tOrd = s.tOrd + 1))

/-- R21, R284: no agent of the hardware ever clears the select enable; only reset or a host's own `CS_WR` does. -/
def Obligations.SelectEnableIsSticky : Prop :=
  ∀ (s t : State) (u : Turn), s.cs = true → u ≠ .reset → takeTurn u s = .next t → t.cs = true

/-- R33: `T_ORD` counts the starts: a step raises it by one exactly when it starts a transfer, and else keeps it, reset
apart. -/
def Obligations.OrdinalCountsStarts : Prop :=
  ∀ s t : State, nextEvent s ≠ .turn .reset → step s = .next t →
    (s.busy = false ∧ t.busy = true ∧ t.tOrd = s.tOrd + 1) ∨
    ((t.busy = true → s.busy = true) ∧ t.tOrd = s.tOrd)

/-- R220: the host moves forward only, one transition at a time, reset apart. -/
def Obligations.HostMovesForwardOnly : Prop :=
  ∀ s t : State, nextEvent s ≠ .turn .reset → step s = .next t →
    t.bState = s.bState ∨ t.bState.rank = s.bState.rank + 1

/-- R141: with the invariant, `SEL` is active exactly while a transfer runs, and the bit on the serial line at time `u`
is `MOSI[LENGTH - 1 - u]` (R68, R143). -/
def Obligations.SelectFramesTransfer : Prop :=
  ∀ s : State, ControlInv s → sel s = s.busy ∧
    (shiftEnabled s = true → mosiLine s = s.mosi.getLsbD (s.ctrlLength.toNat - 1 - bitTime s))

/-- R131, R174, R172: the sequencer's writes are never refused and the loader, the transfer agent and reset always have
an answer; from the invariants no agent's turn stops the machine. -/
def Obligations.NoTurnStops : Prop :=
  ∀ (s : State) (u : Turn), ControlInv s → HostInv s → ∃ t, takeTurn u s = .next t

/-- R178, R241: in a transfer the device does not answer every step but a reset leaves the machine polling, with the
loader where it was: the hang. -/
def Obligations.HangIsForever : Prop :=
  ∀ s t : State, Hung s → nextEvent s ≠ .turn .reset → step s = .next t →
    Hung t ∧ t.lPhase = s.lPhase ∧ t.lIdx = s.lIdx ∧ t.ipAcc = s.ipAcc ∧ t.macAcc = s.macAcc ∧ t.wires.rsp = none

/-- R232, R229: at the end of a run the load is done, no command and no transfer runs, both identity registers are
written, no agent has a step that changes state, no host request does anything but to be refused, as every identity write
is then (R43, U6), and every step, reset apart, leaves all of R20's state as it is: what changes is the model's own (the
agenda, the counters of turns and draws, the wires). R229 and R232 say only that no state changes: that a request which is
not refused only has its event taken off, with nothing shown, a read's result included, is the model's choice (log 37,
DEDUCED). -/
def Obligations.FinalStateRests : Prop :=
  ∀ s : State, HostInv s → Final s →
    (s.lPhase = .done ∧ s.tPhase = .idle ∧ s.busy = false ∧ s.idMac ≠ none ∧ s.idIp ≠ none) ∧
    (∀ u, u ≠ .reset → takeTurn u s = .next s) ∧
    (∀ q t, nextEvent s = .request q → fromHost q = true → step s = .next t → t = s.advance) ∧
    (∀ r ∈ [Reg.idMac, .idIp], ∀ v, nextEvent s = .request ⟨.write r, v⟩ → step s = .refused .identityRewrite) ∧
    (∀ t, nextEvent s ≠ .turn .reset → step s = .next t →
      t = { s with agenda := t.agenda, tick := t.tick, drawIdx := t.drawIdx, wires := t.wires })

/-- R146: in every infinite run without a reset that is weakly fair to the transfer agent, a running transfer the device
answers completes, however many polls and other steps come between. Fairness is a premise on the sequence of events, not
a property of the free schedule (log 25). -/
def Obligations.FairTransferCompletes : Prop :=
  ∀ (e : Nat → Event) (f : Nat → State), Execution e f → WeaklyFair e f → (∀ n, e n ≠ .turn .reset) →
    (f 0).busy = true → flashResponds (f 0) ((f 0).tOrd - 1) = true → ∃ n, (f n).busy = false ∧ (f n).done = true

/-! ### Whole operations -/

/-- R147: a transfer of length `L` from its start, with a device that lets it complete, ends after `L` shifts and the
completion with the `L` samples in `MISO`, first sample most significant, above it what was there before. -/
def Obligations.WholeTransferResult : Prop :=
  ∀ (s : State) (rest : List Event), ControlInv s → s.busy = true → s.bitcnt.toNat = s.ctrlLength.toNat →
    flashResponds s (s.tOrd - 1) = true →
    s.agenda = turns (List.replicate (s.ctrlLength.toNat + 1) .transfer) ++ rest →
    ∃ t, run (s.ctrlLength.toNat + 1) s = .next t ∧ t.agenda = rest ∧
      t.txsr = 0 ∧ t.bitcnt = 0 ∧ t.busy = false ∧ t.done = true ∧ t.mosi = s.mosi ∧ t.cs = true ∧
      t.ctrlLength = s.ctrlLength ∧
      ∀ j < 40, t.miso.getLsbD j =
        if j < s.ctrlLength.toNat then
          (devOut (flashAt s) s.mosi s.ctrlLength.toNat (s.ctrlLength.toNat - 1 - j)).getD
            (drawAt s (s.drawIdx + (s.ctrlLength.toNat - 1 - j)))
        else s.miso.getLsbD (j - s.ctrlLength.toNat)

/-- R177, R179: a `READ_BYTE a` presented by a host with steps to take, when `cmd_ready` = 1, to a responding device
delivers exactly `Flash(a)`, with any number of polls anywhere among the steps of the transfer, and leaves what R179
says, the loader and the host as they were. -/
def Obligations.ReadByteReturnsFlash : Prop :=
  ∀ (s : State) (a : FlashAddr) (ts : List Turn) (rest : List Event), hostAtRest s = false → cmdReady s = true →
    flashResponds s s.tOrd = true → (∀ u ∈ ts, u = .sequencer ∨ u = .transfer) → ts.count .transfer = 40 →
    s.agenda = .request (encode (.readByte a)) ::
      turns ([.sequencer, .sequencer, .sequencer] ++ ts ++ [.transfer, .sequencer, .sequencer]) ++ rest →
    ∃ t, run (1 + (3 + ts.length + 3)) s = .next t ∧ t.agenda = rest ∧
      t.wires.rsp = some (.byte (flashAt s a)) ∧
      t.cs = true ∧ t.mosi = outWord a ∧ t.ctrlLength = 40 ∧ t.done = true ∧ t.busy = false ∧ t.bitcnt = 0 ∧
      t.txsr = 0 ∧ respByte t.miso = flashAt s a ∧ t.tAddr = a ∧ t.tData = flashAt s a ∧ t.tPhase = .idle ∧
      t.tOrd = s.tOrd + 1 ∧ t.lPhase = s.lPhase ∧ t.lIdx = s.lIdx ∧ t.lPtr = s.lPtr ∧ t.ipAcc = s.ipAcc ∧
      t.macAcc = s.macAcc ∧ t.idMac = s.idMac ∧ t.idIp = s.idIp ∧ t.bState = s.bState

/-- R197, R204, R205: a `LOAD_IDENTITY` presented by a host with steps to take to a ready block that has not loaded yet,
with a device that answers the ten transfers, delivers the record's IP and MAC after ten transactions, with any number
of polls anywhere among the steps of each transfer. -/
def Obligations.LoadReturnsRecord : Prop :=
  ∀ (s : State) (tss : List (List Turn)) (rest : List Event), hostAtRest s = false → cmdReady s = true →
    s.lPhase = .idle → (∀ i < 10, flashResponds s (s.tOrd + i) = true) →
    tss.length = 10 → (∀ ts ∈ tss, (∀ u ∈ ts, u = .sequencer ∨ u = .transfer) ∧ ts.count .transfer = 40) →
    s.agenda = .request (encode .loadIdentity) :: turns (tss.map loaderTransaction).flatten ++ rest →
    ∃ t, run (1 + (tss.map loaderTransaction).flatten.length) s = .next t ∧ t.agenda = rest ∧
      t.wires.rsp = some (.identity (recordIp s) (recordMac s)) ∧ t.ipAcc = recordIp s ∧ t.macAcc = recordMac s ∧
      t.lPhase = .done ∧ t.lIdx = 10 ∧ t.lPtr = s.params.cfgBase + 10 ∧ t.tOrd = s.tOrd + 10 ∧ t.tPhase = .idle ∧
      cmdReady t = true
end

