-- ==== Sys2Proof/Laws/State.lean ====
section
/-! SUPPORT. Each field after each named update of the state. -/

namespace Sys2Proof.Machine

open Sys2Proof

/-! A shown access is on the wires only. -/

@[simp] theorem State.shows_cs (s : State) (a : Access) : (s.shows a).cs = s.cs := rfl
@[simp] theorem State.shows_mosi (s : State) (a : Access) : (s.shows a).mosi = s.mosi := rfl
@[simp] theorem State.shows_ctrlLength (s : State) (a : Access) : (s.shows a).ctrlLength = s.ctrlLength := rfl
@[simp] theorem State.shows_done (s : State) (a : Access) : (s.shows a).done = s.done := rfl
@[simp] theorem State.shows_miso (s : State) (a : Access) : (s.shows a).miso = s.miso := rfl
@[simp] theorem State.shows_txsr (s : State) (a : Access) : (s.shows a).txsr = s.txsr := rfl
@[simp] theorem State.shows_bitcnt (s : State) (a : Access) : (s.shows a).bitcnt = s.bitcnt := rfl
@[simp] theorem State.shows_busy (s : State) (a : Access) : (s.shows a).busy = s.busy := rfl
@[simp] theorem State.shows_tPhase (s : State) (a : Access) : (s.shows a).tPhase = s.tPhase := rfl
@[simp] theorem State.shows_tAddr (s : State) (a : Access) : (s.shows a).tAddr = s.tAddr := rfl
@[simp] theorem State.shows_tData (s : State) (a : Access) : (s.shows a).tData = s.tData := rfl
@[simp] theorem State.shows_tOrd (s : State) (a : Access) : (s.shows a).tOrd = s.tOrd := rfl
@[simp] theorem State.shows_lPhase (s : State) (a : Access) : (s.shows a).lPhase = s.lPhase := rfl
@[simp] theorem State.shows_lIdx (s : State) (a : Access) : (s.shows a).lIdx = s.lIdx := rfl
@[simp] theorem State.shows_lPtr (s : State) (a : Access) : (s.shows a).lPtr = s.lPtr := rfl
@[simp] theorem State.shows_ipAcc (s : State) (a : Access) : (s.shows a).ipAcc = s.ipAcc := rfl
@[simp] theorem State.shows_macAcc (s : State) (a : Access) : (s.shows a).macAcc = s.macAcc := rfl
@[simp] theorem State.shows_idMac (s : State) (a : Access) : (s.shows a).idMac = s.idMac := rfl
@[simp] theorem State.shows_idIp (s : State) (a : Access) : (s.shows a).idIp = s.idIp := rfl
@[simp] theorem State.shows_bState (s : State) (a : Access) : (s.shows a).bState = s.bState := rfl
@[simp] theorem State.shows_flash (s : State) (a : Access) : (s.shows a).flash = s.flash := rfl
@[simp] theorem State.shows_params (s : State) (a : Access) : (s.shows a).params = s.params := rfl
@[simp] theorem State.shows_agenda (s : State) (a : Access) : (s.shows a).agenda = s.agenda := rfl
@[simp] theorem State.shows_tick (s : State) (a : Access) : (s.shows a).tick = s.tick := rfl
@[simp] theorem State.shows_drawIdx (s : State) (a : Access) : (s.shows a).drawIdx = s.drawIdx := rfl
@[simp] theorem State.shows_memCalls (s : State) (a : Access) : (s.shows a).memCalls = s.memCalls := rfl
@[simp] theorem State.shows_memHung (s : State) (a : Access) : (s.shows a).memHung = s.memHung := rfl
@[simp] theorem State.shows_wires (s : State) (a : Access) :
    (s.shows a).wires = { s.wires with access := some a } := rfl

/-! A called routine is on the wires only. -/

@[simp] theorem State.calls_cs (s : State) (e : External) : (s.calls e).cs = s.cs := rfl
@[simp] theorem State.calls_mosi (s : State) (e : External) : (s.calls e).mosi = s.mosi := rfl
@[simp] theorem State.calls_ctrlLength (s : State) (e : External) : (s.calls e).ctrlLength = s.ctrlLength := rfl
@[simp] theorem State.calls_done (s : State) (e : External) : (s.calls e).done = s.done := rfl
@[simp] theorem State.calls_miso (s : State) (e : External) : (s.calls e).miso = s.miso := rfl
@[simp] theorem State.calls_txsr (s : State) (e : External) : (s.calls e).txsr = s.txsr := rfl
@[simp] theorem State.calls_bitcnt (s : State) (e : External) : (s.calls e).bitcnt = s.bitcnt := rfl
@[simp] theorem State.calls_busy (s : State) (e : External) : (s.calls e).busy = s.busy := rfl
@[simp] theorem State.calls_tPhase (s : State) (e : External) : (s.calls e).tPhase = s.tPhase := rfl
@[simp] theorem State.calls_tAddr (s : State) (e : External) : (s.calls e).tAddr = s.tAddr := rfl
@[simp] theorem State.calls_tData (s : State) (e : External) : (s.calls e).tData = s.tData := rfl
@[simp] theorem State.calls_tOrd (s : State) (e : External) : (s.calls e).tOrd = s.tOrd := rfl
@[simp] theorem State.calls_lPhase (s : State) (e : External) : (s.calls e).lPhase = s.lPhase := rfl
@[simp] theorem State.calls_lIdx (s : State) (e : External) : (s.calls e).lIdx = s.lIdx := rfl
@[simp] theorem State.calls_lPtr (s : State) (e : External) : (s.calls e).lPtr = s.lPtr := rfl
@[simp] theorem State.calls_ipAcc (s : State) (e : External) : (s.calls e).ipAcc = s.ipAcc := rfl
@[simp] theorem State.calls_macAcc (s : State) (e : External) : (s.calls e).macAcc = s.macAcc := rfl
@[simp] theorem State.calls_idMac (s : State) (e : External) : (s.calls e).idMac = s.idMac := rfl
@[simp] theorem State.calls_idIp (s : State) (e : External) : (s.calls e).idIp = s.idIp := rfl
@[simp] theorem State.calls_bState (s : State) (e : External) : (s.calls e).bState = s.bState := rfl
@[simp] theorem State.calls_flash (s : State) (e : External) : (s.calls e).flash = s.flash := rfl
@[simp] theorem State.calls_params (s : State) (e : External) : (s.calls e).params = s.params := rfl
@[simp] theorem State.calls_agenda (s : State) (e : External) : (s.calls e).agenda = s.agenda := rfl
@[simp] theorem State.calls_tick (s : State) (e : External) : (s.calls e).tick = s.tick := rfl
@[simp] theorem State.calls_drawIdx (s : State) (e : External) : (s.calls e).drawIdx = s.drawIdx := rfl
@[simp] theorem State.calls_memCalls (s : State) (e : External) : (s.calls e).memCalls = s.memCalls := rfl
@[simp] theorem State.calls_memHung (s : State) (e : External) : (s.calls e).memHung = s.memHung := rfl
@[simp] theorem State.calls_wires (s : State) (e : External) :
    (s.calls e).wires = { s.wires with external := some e } := rfl

/-! The start of a step takes the event and quiets the wires. -/

@[simp] theorem State.advance_cs (s : State) : (s.advance).cs = s.cs := rfl
@[simp] theorem State.advance_mosi (s : State) : (s.advance).mosi = s.mosi := rfl
@[simp] theorem State.advance_ctrlLength (s : State) : (s.advance).ctrlLength = s.ctrlLength := rfl
@[simp] theorem State.advance_done (s : State) : (s.advance).done = s.done := rfl
@[simp] theorem State.advance_miso (s : State) : (s.advance).miso = s.miso := rfl
@[simp] theorem State.advance_txsr (s : State) : (s.advance).txsr = s.txsr := rfl
@[simp] theorem State.advance_bitcnt (s : State) : (s.advance).bitcnt = s.bitcnt := rfl
@[simp] theorem State.advance_busy (s : State) : (s.advance).busy = s.busy := rfl
@[simp] theorem State.advance_tPhase (s : State) : (s.advance).tPhase = s.tPhase := rfl
@[simp] theorem State.advance_tAddr (s : State) : (s.advance).tAddr = s.tAddr := rfl
@[simp] theorem State.advance_tData (s : State) : (s.advance).tData = s.tData := rfl
@[simp] theorem State.advance_tOrd (s : State) : (s.advance).tOrd = s.tOrd := rfl
@[simp] theorem State.advance_lPhase (s : State) : (s.advance).lPhase = s.lPhase := rfl
@[simp] theorem State.advance_lIdx (s : State) : (s.advance).lIdx = s.lIdx := rfl
@[simp] theorem State.advance_lPtr (s : State) : (s.advance).lPtr = s.lPtr := rfl
@[simp] theorem State.advance_ipAcc (s : State) : (s.advance).ipAcc = s.ipAcc := rfl
@[simp] theorem State.advance_macAcc (s : State) : (s.advance).macAcc = s.macAcc := rfl
@[simp] theorem State.advance_idMac (s : State) : (s.advance).idMac = s.idMac := rfl
@[simp] theorem State.advance_idIp (s : State) : (s.advance).idIp = s.idIp := rfl
@[simp] theorem State.advance_bState (s : State) : (s.advance).bState = s.bState := rfl
@[simp] theorem State.advance_flash (s : State) : (s.advance).flash = s.flash := rfl
@[simp] theorem State.advance_params (s : State) : (s.advance).params = s.params := rfl
@[simp] theorem State.advance_agenda (s : State) : (s.advance).agenda = s.agenda.tail := rfl
@[simp] theorem State.advance_tick (s : State) :
    (s.advance).tick = (if s.agenda = [] then s.tick + 1 else s.tick) := rfl
@[simp] theorem State.advance_drawIdx (s : State) : (s.advance).drawIdx = s.drawIdx := rfl
@[simp] theorem State.advance_memCalls (s : State) : (s.advance).memCalls = s.memCalls := rfl
@[simp] theorem State.advance_memHung (s : State) : (s.advance).memHung = s.memHung := rfl
@[simp] theorem State.advance_wires (s : State) : (s.advance).wires = .quiet := rfl

/-! The start of a transfer (R122). -/

@[simp] theorem startTransfer_cs (len : Byte) (s : State) : (startTransfer len s).cs = s.cs := rfl
@[simp] theorem startTransfer_mosi (len : Byte) (s : State) : (startTransfer len s).mosi = s.mosi := rfl
@[simp] theorem startTransfer_ctrlLength (len : Byte) (s : State) : (startTransfer len s).ctrlLength = len := rfl
@[simp] theorem startTransfer_done (len : Byte) (s : State) : (startTransfer len s).done = false := rfl
@[simp] theorem startTransfer_miso (len : Byte) (s : State) : (startTransfer len s).miso = s.miso := rfl
@[simp] theorem startTransfer_txsr (len : Byte) (s : State) :
    (startTransfer len s).txsr = s.mosi <<< (40 - len.toNat) := rfl
@[simp] theorem startTransfer_bitcnt (len : Byte) (s : State) : (startTransfer len s).bitcnt = len.setWidth 6 := rfl
@[simp] theorem startTransfer_busy (len : Byte) (s : State) : (startTransfer len s).busy = true := rfl
@[simp] theorem startTransfer_tPhase (len : Byte) (s : State) : (startTransfer len s).tPhase = s.tPhase := rfl
@[simp] theorem startTransfer_tAddr (len : Byte) (s : State) : (startTransfer len s).tAddr = s.tAddr := rfl
@[simp] theorem startTransfer_tData (len : Byte) (s : State) : (startTransfer len s).tData = s.tData := rfl
@[simp] theorem startTransfer_tOrd (len : Byte) (s : State) : (startTransfer len s).tOrd = s.tOrd + 1 := rfl
@[simp] theorem startTransfer_lPhase (len : Byte) (s : State) : (startTransfer len s).lPhase = s.lPhase := rfl
@[simp] theorem startTransfer_lIdx (len : Byte) (s : State) : (startTransfer len s).lIdx = s.lIdx := rfl
@[simp] theorem startTransfer_lPtr (len : Byte) (s : State) : (startTransfer len s).lPtr = s.lPtr := rfl
@[simp] theorem startTransfer_ipAcc (len : Byte) (s : State) : (startTransfer len s).ipAcc = s.ipAcc := rfl
@[simp] theorem startTransfer_macAcc (len : Byte) (s : State) : (startTransfer len s).macAcc = s.macAcc := rfl
@[simp] theorem startTransfer_idMac (len : Byte) (s : State) : (startTransfer len s).idMac = s.idMac := rfl
@[simp] theorem startTransfer_idIp (len : Byte) (s : State) : (startTransfer len s).idIp = s.idIp := rfl
@[simp] theorem startTransfer_bState (len : Byte) (s : State) : (startTransfer len s).bState = s.bState := rfl
@[simp] theorem startTransfer_flash (len : Byte) (s : State) : (startTransfer len s).flash = s.flash := rfl
@[simp] theorem startTransfer_params (len : Byte) (s : State) : (startTransfer len s).params = s.params := rfl
@[simp] theorem startTransfer_agenda (len : Byte) (s : State) : (startTransfer len s).agenda = s.agenda := rfl
@[simp] theorem startTransfer_tick (len : Byte) (s : State) : (startTransfer len s).tick = s.tick := rfl
@[simp] theorem startTransfer_drawIdx (len : Byte) (s : State) : (startTransfer len s).drawIdx = s.drawIdx := rfl
@[simp] theorem startTransfer_memCalls (len : Byte) (s : State) : (startTransfer len s).memCalls = s.memCalls := rfl
@[simp] theorem startTransfer_memHung (len : Byte) (s : State) : (startTransfer len s).memHung = s.memHung := rfl
@[simp] theorem startTransfer_wires (len : Byte) (s : State) : (startTransfer len s).wires = s.wires := rfl

/-! One bit period (R143). -/

@[simp] theorem shiftStep_cs (s : State) : (shiftStep s).cs = s.cs := rfl
@[simp] theorem shiftStep_mosi (s : State) : (shiftStep s).mosi = s.mosi := rfl
@[simp] theorem shiftStep_ctrlLength (s : State) : (shiftStep s).ctrlLength = s.ctrlLength := rfl
@[simp] theorem shiftStep_done (s : State) : (shiftStep s).done = s.done := rfl
@[simp] theorem shiftStep_miso (s : State) :
    (shiftStep s).miso = (s.miso <<< 1) ||| (BitVec.ofBool (sampleBit s)).setWidth 40 := rfl
@[simp] theorem shiftStep_txsr (s : State) : (shiftStep s).txsr = s.txsr <<< 1 := rfl
@[simp] theorem shiftStep_bitcnt (s : State) : (shiftStep s).bitcnt = s.bitcnt - 1 := rfl
@[simp] theorem shiftStep_busy (s : State) : (shiftStep s).busy = s.busy := rfl
@[simp] theorem shiftStep_tPhase (s : State) : (shiftStep s).tPhase = s.tPhase := rfl
@[simp] theorem shiftStep_tAddr (s : State) : (shiftStep s).tAddr = s.tAddr := rfl
@[simp] theorem shiftStep_tData (s : State) : (shiftStep s).tData = s.tData := rfl
@[simp] theorem shiftStep_tOrd (s : State) : (shiftStep s).tOrd = s.tOrd := rfl
@[simp] theorem shiftStep_lPhase (s : State) : (shiftStep s).lPhase = s.lPhase := rfl
@[simp] theorem shiftStep_lIdx (s : State) : (shiftStep s).lIdx = s.lIdx := rfl
@[simp] theorem shiftStep_lPtr (s : State) : (shiftStep s).lPtr = s.lPtr := rfl
@[simp] theorem shiftStep_ipAcc (s : State) : (shiftStep s).ipAcc = s.ipAcc := rfl
@[simp] theorem shiftStep_macAcc (s : State) : (shiftStep s).macAcc = s.macAcc := rfl
@[simp] theorem shiftStep_idMac (s : State) : (shiftStep s).idMac = s.idMac := rfl
@[simp] theorem shiftStep_idIp (s : State) : (shiftStep s).idIp = s.idIp := rfl
@[simp] theorem shiftStep_bState (s : State) : (shiftStep s).bState = s.bState := rfl
@[simp] theorem shiftStep_flash (s : State) : (shiftStep s).flash = s.flash := rfl
@[simp] theorem shiftStep_params (s : State) : (shiftStep s).params = s.params := rfl
@[simp] theorem shiftStep_agenda (s : State) : (shiftStep s).agenda = s.agenda := rfl
@[simp] theorem shiftStep_tick (s : State) : (shiftStep s).tick = s.tick := rfl
@[simp] theorem shiftStep_drawIdx (s : State) :
    (shiftStep s).drawIdx = (if (devSample s).isSome then s.drawIdx else s.drawIdx + 1) := rfl
@[simp] theorem shiftStep_memCalls (s : State) : (shiftStep s).memCalls = s.memCalls := rfl
@[simp] theorem shiftStep_memHung (s : State) : (shiftStep s).memHung = s.memHung := rfl
@[simp] theorem shiftStep_wires (s : State) :
    (shiftStep s).wires = { s.wires with mosiBit := some (mosiLine s), misoBit := some (sampleBit s) } := rfl

/-! The end of a transfer (R145). -/

@[simp] theorem completeStep_cs (s : State) : (completeStep s).cs = s.cs := rfl
@[simp] theorem completeStep_mosi (s : State) : (completeStep s).mosi = s.mosi := rfl
@[simp] theorem completeStep_ctrlLength (s : State) : (completeStep s).ctrlLength = s.ctrlLength := rfl
@[simp] theorem completeStep_done (s : State) : (completeStep s).done = true := rfl
@[simp] theorem completeStep_miso (s : State) : (completeStep s).miso = s.miso := rfl
@[simp] theorem completeStep_txsr (s : State) : (completeStep s).txsr = s.txsr := rfl
@[simp] theorem completeStep_bitcnt (s : State) : (completeStep s).bitcnt = s.bitcnt := rfl
@[simp] theorem completeStep_busy (s : State) : (completeStep s).busy = false := rfl
@[simp] theorem completeStep_tPhase (s : State) : (completeStep s).tPhase = s.tPhase := rfl
@[simp] theorem completeStep_tAddr (s : State) : (completeStep s).tAddr = s.tAddr := rfl
@[simp] theorem completeStep_tData (s : State) : (completeStep s).tData = s.tData := rfl
@[simp] theorem completeStep_tOrd (s : State) : (completeStep s).tOrd = s.tOrd := rfl
@[simp] theorem completeStep_lPhase (s : State) : (completeStep s).lPhase = s.lPhase := rfl
@[simp] theorem completeStep_lIdx (s : State) : (completeStep s).lIdx = s.lIdx := rfl
@[simp] theorem completeStep_lPtr (s : State) : (completeStep s).lPtr = s.lPtr := rfl
@[simp] theorem completeStep_ipAcc (s : State) : (completeStep s).ipAcc = s.ipAcc := rfl
@[simp] theorem completeStep_macAcc (s : State) : (completeStep s).macAcc = s.macAcc := rfl
@[simp] theorem completeStep_idMac (s : State) : (completeStep s).idMac = s.idMac := rfl
@[simp] theorem completeStep_idIp (s : State) : (completeStep s).idIp = s.idIp := rfl
@[simp] theorem completeStep_bState (s : State) : (completeStep s).bState = s.bState := rfl
@[simp] theorem completeStep_flash (s : State) : (completeStep s).flash = s.flash := rfl
@[simp] theorem completeStep_params (s : State) : (completeStep s).params = s.params := rfl
@[simp] theorem completeStep_agenda (s : State) : (completeStep s).agenda = s.agenda := rfl
@[simp] theorem completeStep_tick (s : State) : (completeStep s).tick = s.tick := rfl
@[simp] theorem completeStep_drawIdx (s : State) : (completeStep s).drawIdx = s.drawIdx := rfl
@[simp] theorem completeStep_memCalls (s : State) : (completeStep s).memCalls = s.memCalls := rfl
@[simp] theorem completeStep_memHung (s : State) : (completeStep s).memHung = s.memHung := rfl
@[simp] theorem completeStep_wires (s : State) : (completeStep s).wires = s.wires := rfl

/-! The device's answer is on the wires, and uses up draws (R150). -/

@[simp] theorem deviceFrame_cs (w : Frame) (s : State) : (deviceFrame w s).cs = s.cs := rfl
@[simp] theorem deviceFrame_mosi (w : Frame) (s : State) : (deviceFrame w s).mosi = s.mosi := rfl
@[simp] theorem deviceFrame_ctrlLength (w : Frame) (s : State) :
    (deviceFrame w s).ctrlLength = s.ctrlLength := rfl
@[simp] theorem deviceFrame_done (w : Frame) (s : State) : (deviceFrame w s).done = s.done := rfl
@[simp] theorem deviceFrame_miso (w : Frame) (s : State) : (deviceFrame w s).miso = s.miso := rfl
@[simp] theorem deviceFrame_txsr (w : Frame) (s : State) : (deviceFrame w s).txsr = s.txsr := rfl
@[simp] theorem deviceFrame_bitcnt (w : Frame) (s : State) : (deviceFrame w s).bitcnt = s.bitcnt := rfl
@[simp] theorem deviceFrame_busy (w : Frame) (s : State) : (deviceFrame w s).busy = s.busy := rfl
@[simp] theorem deviceFrame_tPhase (w : Frame) (s : State) : (deviceFrame w s).tPhase = s.tPhase := rfl
@[simp] theorem deviceFrame_tAddr (w : Frame) (s : State) : (deviceFrame w s).tAddr = s.tAddr := rfl
@[simp] theorem deviceFrame_tData (w : Frame) (s : State) : (deviceFrame w s).tData = s.tData := rfl
@[simp] theorem deviceFrame_tOrd (w : Frame) (s : State) : (deviceFrame w s).tOrd = s.tOrd := rfl
@[simp] theorem deviceFrame_lPhase (w : Frame) (s : State) : (deviceFrame w s).lPhase = s.lPhase := rfl
@[simp] theorem deviceFrame_lIdx (w : Frame) (s : State) : (deviceFrame w s).lIdx = s.lIdx := rfl
@[simp] theorem deviceFrame_lPtr (w : Frame) (s : State) : (deviceFrame w s).lPtr = s.lPtr := rfl
@[simp] theorem deviceFrame_ipAcc (w : Frame) (s : State) : (deviceFrame w s).ipAcc = s.ipAcc := rfl
@[simp] theorem deviceFrame_macAcc (w : Frame) (s : State) : (deviceFrame w s).macAcc = s.macAcc := rfl
@[simp] theorem deviceFrame_idMac (w : Frame) (s : State) : (deviceFrame w s).idMac = s.idMac := rfl
@[simp] theorem deviceFrame_idIp (w : Frame) (s : State) : (deviceFrame w s).idIp = s.idIp := rfl
@[simp] theorem deviceFrame_bState (w : Frame) (s : State) : (deviceFrame w s).bState = s.bState := rfl
@[simp] theorem deviceFrame_flash (w : Frame) (s : State) : (deviceFrame w s).flash = s.flash := rfl
@[simp] theorem deviceFrame_params (w : Frame) (s : State) : (deviceFrame w s).params = s.params := rfl
@[simp] theorem deviceFrame_agenda (w : Frame) (s : State) : (deviceFrame w s).agenda = s.agenda := rfl
@[simp] theorem deviceFrame_tick (w : Frame) (s : State) : (deviceFrame w s).tick = s.tick := rfl
@[simp] theorem deviceFrame_drawIdx (w : Frame) (s : State) : (deviceFrame w s).drawIdx = s.drawIdx + 40 := rfl
@[simp] theorem deviceFrame_memCalls (w : Frame) (s : State) : (deviceFrame w s).memCalls = s.memCalls := rfl
@[simp] theorem deviceFrame_memHung (w : Frame) (s : State) : (deviceFrame w s).memHung = s.memHung := rfl
@[simp] theorem deviceFrame_wires (w : Frame) (s : State) :
    (deviceFrame w s).wires = { s.wires with
      devByte := if w.extractLsb' 32 8 = Config.opcRead then some (flashAt s (w.extractLsb' 8 24)) else none
      samples := some (frameSamples w s 40) } := rfl

/-! The sequencer's acceptance (R171). -/

@[simp] theorem acceptRead_cs (a : FlashAddr) (s : State) : (acceptRead a s).cs = s.cs := rfl
@[simp] theorem acceptRead_mosi (a : FlashAddr) (s : State) : (acceptRead a s).mosi = s.mosi := rfl
@[simp] theorem acceptRead_ctrlLength (a : FlashAddr) (s : State) : (acceptRead a s).ctrlLength = s.ctrlLength := rfl
@[simp] theorem acceptRead_done (a : FlashAddr) (s : State) : (acceptRead a s).done = s.done := rfl
@[simp] theorem acceptRead_miso (a : FlashAddr) (s : State) : (acceptRead a s).miso = s.miso := rfl
@[simp] theorem acceptRead_txsr (a : FlashAddr) (s : State) : (acceptRead a s).txsr = s.txsr := rfl
@[simp] theorem acceptRead_bitcnt (a : FlashAddr) (s : State) : (acceptRead a s).bitcnt = s.bitcnt := rfl
@[simp] theorem acceptRead_busy (a : FlashAddr) (s : State) : (acceptRead a s).busy = s.busy := rfl
@[simp] theorem acceptRead_tPhase (a : FlashAddr) (s : State) : (acceptRead a s).tPhase = .sel := rfl
@[simp] theorem acceptRead_tAddr (a : FlashAddr) (s : State) : (acceptRead a s).tAddr = a := rfl
@[simp] theorem acceptRead_tData (a : FlashAddr) (s : State) : (acceptRead a s).tData = s.tData := rfl
@[simp] theorem acceptRead_tOrd (a : FlashAddr) (s : State) : (acceptRead a s).tOrd = s.tOrd := rfl
@[simp] theorem acceptRead_lPhase (a : FlashAddr) (s : State) : (acceptRead a s).lPhase = s.lPhase := rfl
@[simp] theorem acceptRead_lIdx (a : FlashAddr) (s : State) : (acceptRead a s).lIdx = s.lIdx := rfl
@[simp] theorem acceptRead_lPtr (a : FlashAddr) (s : State) : (acceptRead a s).lPtr = s.lPtr := rfl
@[simp] theorem acceptRead_ipAcc (a : FlashAddr) (s : State) : (acceptRead a s).ipAcc = s.ipAcc := rfl
@[simp] theorem acceptRead_macAcc (a : FlashAddr) (s : State) : (acceptRead a s).macAcc = s.macAcc := rfl
@[simp] theorem acceptRead_idMac (a : FlashAddr) (s : State) : (acceptRead a s).idMac = s.idMac := rfl
@[simp] theorem acceptRead_idIp (a : FlashAddr) (s : State) : (acceptRead a s).idIp = s.idIp := rfl
@[simp] theorem acceptRead_bState (a : FlashAddr) (s : State) : (acceptRead a s).bState = s.bState := rfl
@[simp] theorem acceptRead_flash (a : FlashAddr) (s : State) : (acceptRead a s).flash = s.flash := rfl
@[simp] theorem acceptRead_params (a : FlashAddr) (s : State) : (acceptRead a s).params = s.params := rfl
@[simp] theorem acceptRead_agenda (a : FlashAddr) (s : State) : (acceptRead a s).agenda = s.agenda := rfl
@[simp] theorem acceptRead_tick (a : FlashAddr) (s : State) : (acceptRead a s).tick = s.tick := rfl
@[simp] theorem acceptRead_drawIdx (a : FlashAddr) (s : State) : (acceptRead a s).drawIdx = s.drawIdx := rfl
@[simp] theorem acceptRead_memCalls (a : FlashAddr) (s : State) : (acceptRead a s).memCalls = s.memCalls := rfl
@[simp] theorem acceptRead_memHung (a : FlashAddr) (s : State) : (acceptRead a s).memHung = s.memHung := rfl
@[simp] theorem acceptRead_wires (a : FlashAddr) (s : State) : (acceptRead a s).wires = s.wires := rfl

/-! The loader's acceptance (R191). -/

@[simp] theorem acceptLoad_cs (s : State) : (acceptLoad s).cs = s.cs := rfl
@[simp] theorem acceptLoad_mosi (s : State) : (acceptLoad s).mosi = s.mosi := rfl
@[simp] theorem acceptLoad_ctrlLength (s : State) : (acceptLoad s).ctrlLength = s.ctrlLength := rfl
@[simp] theorem acceptLoad_done (s : State) : (acceptLoad s).done = s.done := rfl
@[simp] theorem acceptLoad_miso (s : State) : (acceptLoad s).miso = s.miso := rfl
@[simp] theorem acceptLoad_txsr (s : State) : (acceptLoad s).txsr = s.txsr := rfl
@[simp] theorem acceptLoad_bitcnt (s : State) : (acceptLoad s).bitcnt = s.bitcnt := rfl
@[simp] theorem acceptLoad_busy (s : State) : (acceptLoad s).busy = s.busy := rfl
@[simp] theorem acceptLoad_tPhase (s : State) : (acceptLoad s).tPhase = s.tPhase := rfl
@[simp] theorem acceptLoad_tAddr (s : State) : (acceptLoad s).tAddr = s.tAddr := rfl
@[simp] theorem acceptLoad_tData (s : State) : (acceptLoad s).tData = s.tData := rfl
@[simp] theorem acceptLoad_tOrd (s : State) : (acceptLoad s).tOrd = s.tOrd := rfl
@[simp] theorem acceptLoad_lPhase (s : State) : (acceptLoad s).lPhase = .req := rfl
@[simp] theorem acceptLoad_lIdx (s : State) : (acceptLoad s).lIdx = 0 := rfl
@[simp] theorem acceptLoad_lPtr (s : State) : (acceptLoad s).lPtr = s.params.cfgBase := rfl
@[simp] theorem acceptLoad_ipAcc (s : State) : (acceptLoad s).ipAcc = s.ipAcc := rfl
@[simp] theorem acceptLoad_macAcc (s : State) : (acceptLoad s).macAcc = s.macAcc := rfl
@[simp] theorem acceptLoad_idMac (s : State) : (acceptLoad s).idMac = s.idMac := rfl
@[simp] theorem acceptLoad_idIp (s : State) : (acceptLoad s).idIp = s.idIp := rfl
@[simp] theorem acceptLoad_bState (s : State) : (acceptLoad s).bState = s.bState := rfl
@[simp] theorem acceptLoad_flash (s : State) : (acceptLoad s).flash = s.flash := rfl
@[simp] theorem acceptLoad_params (s : State) : (acceptLoad s).params = s.params := rfl
@[simp] theorem acceptLoad_agenda (s : State) : (acceptLoad s).agenda = s.agenda := rfl
@[simp] theorem acceptLoad_tick (s : State) : (acceptLoad s).tick = s.tick := rfl
@[simp] theorem acceptLoad_drawIdx (s : State) : (acceptLoad s).drawIdx = s.drawIdx := rfl
@[simp] theorem acceptLoad_memCalls (s : State) : (acceptLoad s).memCalls = s.memCalls := rfl
@[simp] theorem acceptLoad_memHung (s : State) : (acceptLoad s).memHung = s.memHung := rfl
@[simp] theorem acceptLoad_wires (s : State) : (acceptLoad s).wires = s.wires := rfl

/-! The loader's request (R192). -/

@[simp] theorem requestByte_cs (s : State) : (requestByte s).cs = s.cs := rfl
@[simp] theorem requestByte_mosi (s : State) : (requestByte s).mosi = s.mosi := rfl
@[simp] theorem requestByte_ctrlLength (s : State) : (requestByte s).ctrlLength = s.ctrlLength := rfl
@[simp] theorem requestByte_done (s : State) : (requestByte s).done = s.done := rfl
@[simp] theorem requestByte_miso (s : State) : (requestByte s).miso = s.miso := rfl
@[simp] theorem requestByte_txsr (s : State) : (requestByte s).txsr = s.txsr := rfl
@[simp] theorem requestByte_bitcnt (s : State) : (requestByte s).bitcnt = s.bitcnt := rfl
@[simp] theorem requestByte_busy (s : State) : (requestByte s).busy = s.busy := rfl
@[simp] theorem requestByte_tPhase (s : State) : (requestByte s).tPhase = .sel := rfl
@[simp] theorem requestByte_tAddr (s : State) : (requestByte s).tAddr = s.lPtr := rfl
@[simp] theorem requestByte_tData (s : State) : (requestByte s).tData = s.tData := rfl
@[simp] theorem requestByte_tOrd (s : State) : (requestByte s).tOrd = s.tOrd := rfl
@[simp] theorem requestByte_lPhase (s : State) : (requestByte s).lPhase = .wait := rfl
@[simp] theorem requestByte_lIdx (s : State) : (requestByte s).lIdx = s.lIdx := rfl
@[simp] theorem requestByte_lPtr (s : State) : (requestByte s).lPtr = s.lPtr := rfl
@[simp] theorem requestByte_ipAcc (s : State) : (requestByte s).ipAcc = s.ipAcc := rfl
@[simp] theorem requestByte_macAcc (s : State) : (requestByte s).macAcc = s.macAcc := rfl
@[simp] theorem requestByte_idMac (s : State) : (requestByte s).idMac = s.idMac := rfl
@[simp] theorem requestByte_idIp (s : State) : (requestByte s).idIp = s.idIp := rfl
@[simp] theorem requestByte_bState (s : State) : (requestByte s).bState = s.bState := rfl
@[simp] theorem requestByte_flash (s : State) : (requestByte s).flash = s.flash := rfl
@[simp] theorem requestByte_params (s : State) : (requestByte s).params = s.params := rfl
@[simp] theorem requestByte_agenda (s : State) : (requestByte s).agenda = s.agenda := rfl
@[simp] theorem requestByte_tick (s : State) : (requestByte s).tick = s.tick := rfl
@[simp] theorem requestByte_drawIdx (s : State) : (requestByte s).drawIdx = s.drawIdx := rfl
@[simp] theorem requestByte_memCalls (s : State) : (requestByte s).memCalls = s.memCalls := rfl
@[simp] theorem requestByte_memHung (s : State) : (requestByte s).memHung = s.memHung := rfl
@[simp] theorem requestByte_wires (s : State) : (requestByte s).wires = s.wires := rfl

end Sys2Proof.Machine
end

