-- ==== Sys2Proof/Laws/Ops.lean ====
section
/-! SUPPORT. For each shared operation one lemma that says everything it can do. -/

namespace Sys2Proof.Machine

open Sys2Proof

theorem loaderQuiet_iff (s : State) : loaderQuiet s = true ↔ s.lPhase = .idle ∨ s.lPhase = .done := by
  simp [loaderQuiet]

theorem cmdReady_iff (s : State) :
    cmdReady s = true ↔ s.tPhase = .idle ∧ (s.lPhase = .idle ∨ s.lPhase = .done) ∧ s.busy = false := by
  simp [cmdReady, loaderQuiet]

theorem hostEntitled_iff (s : State) :
    hostEntitled s = true ↔ s.tPhase = .idle ∧ (s.lPhase = .idle ∨ s.lPhase = .done) := by
  simp [hostEntitled, loaderQuiet]

theorem hostAtRest_iff (s : State) : hostAtRest s = true ↔ s.bState = .idle ∨ s.memHung = true := by
  simp [hostAtRest]

theorem hostFree_iff (s : State) : hostFree s = true ↔ hostEntitled s = true ∧ s.memHung = false := by
  simp [hostFree]

theorem shiftEnabled_iff (s : State) : shiftEnabled s = true ↔ s.busy = true ∧ s.bitcnt ≠ 0 := by
  simp [shiftEnabled]

theorem completeEnabled_iff (s : State) :
    completeEnabled s = true ↔ s.busy = true ∧ s.bitcnt = 0 ∧ flashResponds s (s.tOrd - 1) = true := by
  simp [completeEnabled]

/-- The select enable is written at rest only (R120, R130). -/
theorem csWrite_next (v : BusWord) (s t : State) :
    csWrite v s = .next t ↔
      s.busy = false ∧ t = State.shows { s with cs := v.getLsbD 0 } (.wrote .spiCs v) := by
  unfold csWrite csBit
  cases s.busy <;> simp [eq_comm]

/-- The output word is written at rest only (R121, R130). -/
theorem mosiWrite_next (v : BusWord) (s t : State) :
    mosiWrite v s = .next t ↔
      s.busy = false ∧ t = State.shows { s with mosi := v.setWidth 40 } (.wrote .spiMosi v) := by
  unfold mosiWrite wordOf
  cases s.busy <;> simp [eq_comm]

theorem ctrlKind_store (v : BusWord) : ctrlKind v = .store ↔ ctrlCnt v = 0 := by
  unfold ctrlKind
  split
  · simp_all
  · split
    · split <;> simp_all
    · simp_all

theorem ctrlKind_start (v : BusWord) :
    ctrlKind v = .start ↔ ctrlCnt v = 1 ∧ ctrlLen v ≠ 0 ∧ (ctrlLen v).toNat ≤ 40 := by
  unfold ctrlKind
  split
  case isTrue h => simp [h]
  case isFalse =>
    split
    case isTrue h1 =>
      have h1 : ctrlCnt v = 1 := h1
      split
      case isTrue h2 =>
        refine iff_of_false (by simp) fun ⟨_, h3, h4⟩ => ?_
        rcases h2 with h2 | h2
        · exact h3 h2
        · omega
      case isFalse h2 =>
        rw [not_or, Nat.not_lt] at h2
        exact iff_of_true rfl ⟨h1, h2⟩
    case isFalse h1 => exact iff_of_false (by simp) fun ⟨h, _⟩ => h1 h

/-- The transfer control at rest stores a length, or starts a transfer of 1 to 40 bits with the enable set (R122). -/
theorem ctrlWrite_next (v : BusWord) (s t : State) :
    ctrlWrite v s = .next t ↔ s.busy = false ∧
      ((ctrlCnt v = 0 ∧ t = State.shows { s with ctrlLength := ctrlLen v } (.wrote .spiCtrl v)) ∨
        (ctrlCnt v = 1 ∧ ctrlLen v ≠ 0 ∧ (ctrlLen v).toNat ≤ 40 ∧ s.cs = true ∧
          t = (startTransfer (ctrlLen v) s).shows (.wrote .spiCtrl v))) := by
  have hs := ctrlKind_store v
  have hg := ctrlKind_start v
  unfold ctrlWrite
  cases s.busy <;> cases hk : ctrlKind v <;> simp only [hk, reduceCtorEq, true_iff, false_iff] at hs hg
  case false.store => rw [hs]; simp [@eq_comm _ t]
  case false.start =>
    obtain ⟨h1, h2, h3⟩ := hg
    have h2 : ctrlLen v ≠ 0#8 := h2
    rw [h1]
    cases s.cs <;> simp [h2, h3, @eq_comm _ t]
  case false.reservedCount =>
    refine iff_of_false (by simp) ?_
    rintro ⟨_, ⟨h, _⟩ | ⟨h1, h2, h3, _⟩⟩
    · exact hs h
    · exact hg ⟨h1, h2, h3⟩
  case false.reservedLength =>
    refine iff_of_false (by simp) ?_
    rintro ⟨_, ⟨h, _⟩ | ⟨h1, h2, h3, _⟩⟩
    · exact hs h
    · exact hg ⟨h1, h2, h3⟩
  all_goals simp

/-- A host access goes through where the host is entitled, and only there (R131). -/
theorem hostAccess_next (op : State → Result) (s t : State) :
    hostAccess op s = .next t ↔ hostEntitled s = true ∧ op s = .next t := by
  unfold hostAccess
  cases hostEntitled s <;> simp

/-- R226. -/
theorem idMacWrite_next (v : BusWord) (s t : State) :
    idMacWrite v s = .next t ↔
      s.idMac = none ∧ s.bState = .loaded ∧ t = State.shows { s with idMac := some v } (.wrote .idMac v) := by
  unfold idMacWrite
  by_cases h1 : s.idMac = none <;> by_cases h2 : s.bState = .loaded <;> simp [h1, h2, eq_comm]

/-- R227. -/
theorem idIpWrite_next (v : BusWord) (s t : State) :
    idIpWrite v s = .next t ↔
      s.idIp = none ∧ s.bState = .loaded ∧ s.idMac ≠ none ∧
        t = State.shows { s with idIp := some (v.setWidth 32), bState := .published } (.wrote .idIp v) := by
  unfold idIpWrite ipOperand
  by_cases h1 : s.idIp = none <;> by_cases h2 : s.bState = .loaded <;> by_cases h3 : s.idMac = none <;>
    simp [h1, h2, h3, eq_comm]

/-- A delivered byte goes to the host unless the loader waits for it (R176). -/
theorem deliverByte_host (b : Byte) (s : State) (h : s.lPhase ≠ .wait) :
    deliverByte b s = { s with wires := { s.wires with rsp := some (.byte b) } } := by
  simp [deliverByte, h]

/-- The loader takes a byte that is not the last (R193). -/
theorem deliverByte_more (b : Byte) (s : State) (h : s.lPhase = .wait) (hi : s.lIdx ≠ 9) :
    deliverByte b s = { assemble b s with lIdx := s.lIdx + 1, lPtr := s.lPtr + 1, lPhase := .req } := by
  have : (s.lIdx + 1).toNat ≠ Config.recLen := by
    intro hc
    apply hi
    simp [Config.recLen] at hc
    bv_omega
  simp only [deliverByte, consumeByte, h, this, if_true, if_false]

/-- The loader takes the tenth byte and delivers (R194). -/
theorem deliverByte_last (b : Byte) (s : State) (h : s.lPhase = .wait) (hi : s.lIdx = 9) :
    deliverByte b s = { s with
      macAcc := (s.macAcc <<< 8) ||| b.setWidth 64, lIdx := 10, lPtr := s.lPtr + 1, lPhase := .done,
      bState := if s.bState = .console then .loaded else s.bState,
      wires := { s.wires with rsp := some (.identity s.ipAcc ((s.macAcc <<< 8) ||| b.setWidth 64)) } } := by
  simp [deliverByte, consumeByte, receiveIdentity, assemble, macNext, h, hi, Config.recLen, Config.ipBytes]

/-- A request that is not made changes nothing, where it is not refused (R229). -/
theorem unmade_next (s t : State) (r : Result) : unmade s r = .next t ↔ t = s ∧ ∃ u, r = .next u := by
  cases r <;> simp [unmade, eq_comm]

/-- A refusal stays one, whether the host makes the request or not (R256). -/
theorem unmade_refused (s : State) (r : Result) (e : Refusal) : unmade s r = .refused e ↔ r = .refused e := by
  cases r <;> simp [unmade]

/-- What is refused is refused in every state of the host (R256, U1 to U6). -/
theorem perform_refused (q : Request) (s : State) (e : Refusal) :
    perform q s = .refused e ↔ answer q s = .refused e := by
  unfold perform
  split
  · exact unmade_refused s _ e
  · exact Iff.rfl

/-- The samples of a whole frame, bit by bit: the device's bit, or a draw (R144, R150). -/
theorem frameSamples_bit (w : Frame) (s : State) (n t : Nat) (hn : n ≤ 40) (ht : t < n) :
    (frameSamples w s n).getLsbD (n - 1 - t) =
      (devOut (flashAt s) w 40 t).getD (drawAt s (s.drawIdx + t)) := by
  induction n with
  | zero => omega
  | succ n ih =>
    simp only [frameSamples, BitVec.getLsbD_or, BitVec.getLsbD_shiftLeft, BitVec.getLsbD_setWidth]
    by_cases h : t = n
    · subst h
      simp
    · rw [show n + 1 - 1 - t - 1 = n - 1 - t by omega, ih (by omega) (by omega)]
      simp [show n - t ≠ 0 by omega, show n - t < 40 by omega]

/-- A register phase of the sequencer (R172 to R174). -/
theorem thenPhase_next (p : TPhase) (r : Result) (t : State) :
    thenPhase p r = .next t ↔ ∃ u, r = .next u ∧ t = { u with tPhase := p } := by
  cases r <;> simp [thenPhase, eq_comm]

end Sys2Proof.Machine
end

