-- ==== Sys2Proof/Laws/Decode.lean ====
section
/-! SUPPORT. The outgoing word bit by bit, and what the decoder answers for the command and the frame formats. -/

namespace Sys2Proof

open Machine

/-- The outgoing word, bit by bit: pad, address, opcode (R91). -/
theorem outWord_bit (a : FlashAddr) (j : Nat) :
    (outWord a).getLsbD j =
      if j < 8 then false else if j < 32 then a.getLsbD (j - 8) else (0x03 : BitVec 8).getLsbD (j - 32) := by
  unfold outWord Config.opcRead
  have h : ((0x03 : Byte) ++ a ++ (0 : Byte)).getLsbD j =
      if j < 8 then (0 : Byte).getLsbD j else ((0x03 : Byte) ++ a).getLsbD (j - 8) := BitVec.getLsbD_append
  have h' : ((0x03 : Byte) ++ a).getLsbD (j - 8) =
      if j - 8 < 24 then a.getLsbD (j - 8) else (0x03 : Byte).getLsbD (j - 8 - 24) := BitVec.getLsbD_append
  refine h.trans ?_
  rw [h']
  by_cases h1 : j < 8
  · simp [h1]
  · by_cases h2 : j < 32
    · simp [h1, h2, show j - 8 < 24 by omega]
    · simp [h1, h2, show ¬ j - 8 < 24 by omega, show j - 8 - 24 = j - 32 by omega]

/-- The outgoing word's opcode (R91). -/
theorem outWord_opcode (a : FlashAddr) : (outWord a).extractLsb' 32 8 = Config.opcRead := by
  apply BitVec.eq_of_getLsbD_eq
  intro j hj
  rw [BitVec.getLsbD_extractLsb', outWord_bit]
  simp [hj, show ¬ 32 + j < 8 by omega, Config.opcRead]

/-- The outgoing word's address (R91). -/
theorem outWord_address (a : FlashAddr) : (outWord a).extractLsb' 8 24 = a := by
  apply BitVec.eq_of_getLsbD_eq
  intro j hj
  rw [BitVec.getLsbD_extractLsb', outWord_bit]
  simp [hj, show 8 + j < 32 by omega]

/-- A command word of 25 bits is in range. -/
theorem command_range (w : BusWord) : w >>> 25 = 0 ↔ w.toNat < 2 ^ 25 := by
  constructor
  · intro h
    have h := congrArg BitVec.toNat h
    simp [Nat.shiftRight_eq_div_pow] at h
    omega
  · intro h
    apply BitVec.eq_of_toNat_eq
    simp [Nat.shiftRight_eq_div_pow]
    omega

/-- A control write decodes exactly when its fields are not reserved (R105). -/
theorem decodeControl_ok (v : BusWord) (i : Instr) :
    decodeControl v = .ok i ↔ i = .ctrlWr v ∧ (ctrlKind v = .store ∨ ctrlKind v = .start) := by
  unfold decodeControl
  cases ctrlKind v <;> simp [@eq_comm _ i]

end Sys2Proof
end

