-- ==== Sys2Proof/Laws/Memory.lean ====
section
/-! SUPPORT. The flash: the only operation is the read of one byte, so what is to be shown is what it reads and that the
canonical form holds at reset (that every step keeps it is a statement of its own). -/

namespace Sys2Proof.Machine

open Sys2Proof

/-- A listed cell at the head is what its address reads as. -/
theorem Memory.read_head (a : FlashAddr) (b : Byte) (m : Memory) : Memory.read ((a.toNat, b) :: m) a = b := by
  simp [Memory.read, List.lookup]

/-- Nothing listed: every address reads as the free byte. -/
theorem Memory.read_nil (a : FlashAddr) : Memory.read [] a = Config.flash a := rfl

/-- A cell of another address does not matter. -/
theorem Memory.read_other (a : FlashAddr) (c : Host.Cell) (m : Memory) (h : a.toNat ≠ c.1) :
    Memory.read (c :: m) a = Memory.read m a := by
  have : (a.toNat == c.1) = false := by simpa using h
  obtain ⟨x, y⟩ := c
  simp only [Memory.read, List.lookup_cons] at this ⊢
  simp [this]

/-- Reset lists nothing, so its memory is canonical. -/
theorem Memory.wf_reset : Memory.wf State.reset.flash = true := rfl

/-- The flash seen depends on the cells only. -/
theorem flashAt_congr {s t : State} (h : t.flash = s.flash) : flashAt t = flashAt s := by
  funext a
  simp [flashAt, h]

end Sys2Proof.Machine
end

