-- ==== Sys2Proof/Laws/PerInstr.lean ====
section
/-! SUPPORT. The per-instruction family: an operation's request names its register itself, so it means the same
whatever bus addresses a build gives the registers (R63, R74). -/

namespace Sys2Proof.Laws.EncodeResolves

open Sys2Proof

/-- The request of an operation does not depend on the address map. -/
def Statement (i : Instr) : Prop := ∀ m : AddrMap, resolve m (encode i) = encode i

theorem readByte (a : FlashAddr) : Statement (.readByte a) := fun _ => rfl
theorem loadIdentity : Statement .loadIdentity := fun _ => rfl
theorem csWr (v : BusWord) : Statement (.csWr v) := fun _ => rfl
theorem mosiWr (v : BusWord) : Statement (.mosiWr v) := fun _ => rfl
theorem ctrlWr (v : BusWord) : Statement (.ctrlWr v) := fun _ => rfl
theorem statusRd : Statement .statusRd := fun _ => rfl
theorem misoRd : Statement .misoRd := fun _ => rfl
theorem csRd : Statement .csRd := fun _ => rfl
theorem mosiRd : Statement .mosiRd := fun _ => rfl
theorem ctrlRd : Statement .ctrlRd := fun _ => rfl
theorem statusWr (v : BusWord) : Statement (.statusWr v) := fun _ => rfl
theorem misoWr (v : BusWord) : Statement (.misoWr v) := fun _ => rfl
theorem xferShift : Statement .xferShift := fun _ => rfl
theorem xferComplete : Statement .xferComplete := fun _ => rfl
theorem flashRead (a : FlashAddr) : Statement (.flashRead a) := fun _ => rfl
theorem idMacWr (v : BusWord) : Statement (.idMacWr v) := fun _ => rfl
theorem idIpWr (v : BusWord) : Statement (.idIpWr v) := fun _ => rfl

end Sys2Proof.Laws.EncodeResolves
end

