-- ==== Sys2Proof/Laws/Run.lean ====
section
/-! SUPPORT. Runs, one step of a known event, and the response phase of the sequencer in its three cases. -/

namespace Sys2Proof.Machine

open Sys2Proof

/-! ### Runs -/

theorem core_run_succ (M : Host.Core) (n : Nat) (s t : M.State) (h : M.step s = .next t) :
    M.run (n + 1) s = M.run n t := by
  simp only [Host.Core.run, h]

theorem core_run_add (M : Host.Core) (m n : Nat) (s t : M.State) (h : M.run m s = .next t) :
    M.run (m + n) s = M.run n t := by
  induction m generalizing s with
  | zero =>
    simp only [Host.Core.run] at h
    injection h with h
    rw [Nat.zero_add, h]
  | succ m ih =>
    cases hs : M.step s with
    | next u =>
      rw [core_run_succ M m s u hs] at h
      rw [show m + 1 + n = m + n + 1 by omega, core_run_succ M _ s u hs]
      exact ih u h
    | fault r => simp only [Host.Core.run, hs] at h; cases h
    | refused r => simp only [Host.Core.run, hs] at h; cases h

/-- The first step of a run. -/
theorem run_succ (n : Nat) (s t : State) (h : step s = .next t) : run (n + 1) s = run n t :=
  core_run_succ core n s t h

/-- A run in two parts. -/
theorem run_add (m n : Nat) (s t : State) (h : run m s = .next t) : run (m + n) s = run n t :=
  core_run_add core m n s t h

/-- One step whose event is a turn. -/
theorem step_turn (s : State) (u : Turn) (rest : List Event) (h : s.agenda = .turn u :: rest) :
    step s = takeTurn u { s with wires := .quiet, agenda := rest } := by
  unfold step State.advance
  simp [nextEvent, h, runEvent]

/-- One step whose event is an operation presented. -/
theorem step_request (s : State) (i : Instr) (rest : List Event) (h : s.agenda = .request (encode i) :: rest)
    (hf : fetched s (encode i) = .ok i) (hr : hostAtRest s = false) :
    step s = exec i { s with wires := .quiet, agenda := rest } := by
  unfold step State.advance
  simp only [nextEvent, h, runEvent, perform, List.tail_cons, reduceCtorEq, if_false]
  rw [show hostAtRest { s with wires := .quiet, agenda := rest } = false from hr]
  simp only [answer]
  rw [show fetched { s with wires := .quiet, agenda := rest } (encode i) = .ok i from hf]
  rfl

/-! ### The response phase -/

theorem assemble_eq (b : Byte) (s : State) :
    assemble b s = { s with
      ipAcc := if s.lIdx.toNat < 4 then ipNext s.ipAcc s.lIdx b else s.ipAcc,
      macAcc := if s.lIdx.toNat < 4 then s.macAcc else macNext s.macAcc s.lIdx b } := by
  unfold assemble Config.ipBytes
  split <;> rfl

/-- The byte goes to the host (R176). -/
theorem respStep_host (s : State) (hl : s.lPhase ≠ .wait) :
    respStep s = { s with
      tData := respByte s.miso, tPhase := .idle,
      wires := { s.wires with
        access := some (.got .spiMiso (s.miso.setWidth 64)), rsp := some (.byte (respByte s.miso)) } } := by
  unfold respStep
  dsimp only
  rw [deliverByte_host _ _ (by simpa [regRead] using hl)]
  rfl

/-- The byte goes to the loader and is not the last (R193). -/
theorem respStep_more (s : State) (hl : s.lPhase = .wait) (hi : s.lIdx ≠ 9) :
    respStep s = { s with
      tData := respByte s.miso, tPhase := .idle, lIdx := s.lIdx + 1, lPtr := s.lPtr + 1, lPhase := .req,
      ipAcc := if s.lIdx.toNat < 4 then ipNext s.ipAcc s.lIdx (respByte s.miso) else s.ipAcc,
      macAcc := if s.lIdx.toNat < 4 then s.macAcc else macNext s.macAcc s.lIdx (respByte s.miso),
      wires := { s.wires with access := some (.got .spiMiso (s.miso.setWidth 64)) } } := by
  unfold respStep
  dsimp only
  rw [deliverByte_more _ _ (by simpa [regRead] using hl) (by simpa [regRead] using hi), assemble_eq]
  rfl

/-- The byte goes to the loader and is the last (R194). -/
theorem respStep_last (s : State) (hl : s.lPhase = .wait) (hi : s.lIdx = 9) :
    respStep s = { s with
      tData := respByte s.miso, tPhase := .idle,
      macAcc := (s.macAcc <<< 8) ||| (respByte s.miso).setWidth 64, lIdx := 10, lPtr := s.lPtr + 1, lPhase := .done,
      bState := if s.bState = .console then .loaded else s.bState,
      wires := { s.wires with
        access := some (.got .spiMiso (s.miso.setWidth 64)),
        rsp := some (.identity s.ipAcc ((s.macAcc <<< 8) ||| (respByte s.miso).setWidth 64)) } } := by
  unfold respStep
  dsimp only
  rw [deliverByte_last _ _ (by simpa [regRead] using hl) (by simpa [regRead] using hi)]
  rfl

end Sys2Proof.Machine
end

