-- ==== Sys2Proof/Laws/Step.lean ====
section
/-! SUPPORT. Said once: everything one step can do. Every invariant is a case analysis of `Move`. -/

namespace Sys2Proof.Machine

open Sys2Proof

/-- The ways one event changes the state, each with its guard. -/
inductive Move : Event → State → State → Prop
  /-- A command that is not accepted (R96), an internal step that is not enabled (R11), a host without a further step
  (R229). -/
  | ignored (q : Request) (s : State) : Move (.request q) s s
  | readByte (q : Request) (s : State) (a : FlashAddr) (hq : fetched s q = .ok (.readByte a))
      (ha : hostAtRest s = false) (hr : cmdReady s = true) : Move (.request q) s (acceptRead a s)
  | loadIdentity (q : Request) (s : State) (ha : hostAtRest s = false) (hr : cmdReady s = true) (hl : s.lPhase = .idle) :
      Move (.request q) s (acceptLoad s)
  | hostCs (q : Request) (s : State) (v : BusWord) (ha : hostAtRest s = false) (he : hostEntitled s = true)
      (hb : s.busy = false) :
      Move (.request q) s (State.shows { s with cs := v.getLsbD 0 } (.wrote .spiCs v))
  | hostMosi (q : Request) (s : State) (v : BusWord) (ha : hostAtRest s = false) (he : hostEntitled s = true)
      (hb : s.busy = false) :
      Move (.request q) s (State.shows { s with mosi := v.setWidth 40 } (.wrote .spiMosi v))
  | hostLength (q : Request) (s : State) (v : BusWord) (ha : hostAtRest s = false) (he : hostEntitled s = true)
      (hb : s.busy = false) :
      Move (.request q) s (State.shows { s with ctrlLength := ctrlLen v } (.wrote .spiCtrl v))
  | hostStart (q : Request) (s : State) (v : BusWord) (ha : hostAtRest s = false) (he : hostEntitled s = true)
      (hb : s.busy = false) (hc : s.cs = true) (hl : (ctrlLen v).toNat ≤ 40) :
      Move (.request q) s ((startTransfer (ctrlLen v) s).shows (.wrote .spiCtrl v))
  /-- Reads and ignored writes. -/
  | hostSees (q : Request) (s : State) (a : Access) (ha : hostAtRest s = false) (he : hostEntitled s = true) :
      Move (.request q) s (s.shows a)
  /-- A whole frame at the device. -/
  | device (q : Request) (s : State) (w : Frame) : Move (.request q) s (deviceFrame w s)
  | hostMac (q : Request) (s : State) (v : BusWord) (hq : fetched s q = .ok (.idMacWr v))
      (ha : hostAtRest s = false) (he : hostEntitled s = true) (hm : s.idMac = none)
      (hl : s.bState = .loaded) :
      Move (.request q) s (State.shows { s with idMac := some v } (.wrote .idMac v))
  | hostIp (q : Request) (s : State) (v : BusWord) (hq : fetched s q = .ok (.idIpWr v))
      (ha : hostAtRest s = false) (he : hostEntitled s = true) (hi : s.idIp = none)
      (hl : s.bState = .loaded) (hm : s.idMac ≠ none) :
      Move (.request q) s
        (State.shows { s with idIp := some (v.setWidth 32), bState := .published } (.wrote .idIp v))
  /-- One bit period, in the agent's turn or asked for. -/
  | shift (e : Event) (s : State) (he : e = .turn .transfer ∨ ∃ q, e = .request q) (h : shiftEnabled s = true) :
      Move e s (shiftStep s)
  | complete (e : Event) (s : State) (he : e = .turn .transfer ∨ ∃ q, e = .request q)
      (h : completeEnabled s = true) : Move e s (completeStep s)
  /-- An agent without an enabled step. -/
  | rest (u : Turn) (s : State) (hu : u ≠ .reset) : Move (.turn u) s s
  | txnSel (s : State) (hp : s.tPhase = .sel) (hb : s.busy = false) :
      Move (.turn .sequencer) s { State.shows { s with cs := true } (.wrote .spiCs 1) with tPhase := .cmd }
  | txnCmd (s : State) (hp : s.tPhase = .cmd) (hb : s.busy = false) :
      Move (.turn .sequencer) s
        { State.shows { s with mosi := outWord s.tAddr } (.wrote .spiMosi ((outWord s.tAddr).setWidth 64)) with
          tPhase := .go }
  | txnGo (s : State) (hp : s.tPhase = .go) (hb : s.busy = false) (hc : s.cs = true) :
      Move (.turn .sequencer) s
        { (startTransfer 40 s).shows (.wrote .spiCtrl goWord) with tPhase := .poll }
  | txnPoll (s : State) (hp : s.tPhase = .poll) : Move (.turn .sequencer) s (pollStep s)
  | txnResp (s : State) (hp : s.tPhase = .resp) : Move (.turn .sequencer) s (respStep s)
  | request (s : State) (hl : s.lPhase = .req) (hp : s.tPhase = .idle) :
      Move (.turn .loader) s (requestByte s)
  | bootInterrupts (s : State) (hf : hostFree s = true) (hb : s.bState = .reset) : Move (.turn .boot) s (bootInterrupts s)
  | bootConsole (s : State) (hf : hostFree s = true) (hb : s.bState = .irq) : Move (.turn .boot) s (bootConsole s)
  | bootLoad (s : State) (hf : hostFree s = true) (hb : s.bState = .console) (hr : cmdReady s = true) (hl : s.lPhase = .idle) :
      Move (.turn .boot) s (acceptLoad s)
  | bootMac (s : State) (hf : hostFree s = true) (hb : s.bState = .loaded) (hm : s.idMac = none) :
      Move (.turn .boot) s (State.shows { s with idMac := some s.macAcc } (.wrote .idMac s.macAcc))
  | bootIp (s : State) (hf : hostFree s = true) (hb : s.bState = .loaded) (hm : s.idMac ≠ none) (hi : s.idIp = none) :
      Move (.turn .boot) s
        (State.shows { s with idIp := some s.ipAcc, bState := .published } (.wrote .idIp (s.ipAcc.setWidth 64)))
  | bootMemory (s : State) (hf : hostFree s = true) (hb : s.bState = .published) : Move (.turn .boot) s (bootMemory s)
  | bootIdle (s : State) (hf : hostFree s = true) (hb : s.bState = .memReady) (hn : s.busy = false) :
      Move (.turn .boot) s { s with bState := .idle }
  | reset (s : State) : Move (.turn .reset) s (resetEvent s)

/-- What a phase write of the sequencer does. -/
theorem sequencerTurn_move (s t : State) (h : sequencerTurn s = .next t) : Move (.turn .sequencer) s t := by
  unfold sequencerTurn at h
  cases hp : s.tPhase <;> simp only [hp] at h
  case idle => cases h; exact .rest _ _ (by simp)
  case sel =>
    obtain ⟨u, hu, rfl⟩ := (thenPhase_next _ _ _).mp h
    obtain ⟨hb, rfl⟩ := (csWrite_next _ _ _).mp hu
    exact .txnSel s hp hb
  case cmd =>
    obtain ⟨u, hu, rfl⟩ := (thenPhase_next _ _ _).mp h
    obtain ⟨hb, rfl⟩ := (mosiWrite_next _ _ _).mp hu
    have hw : ((outWord s.tAddr).setWidth 64).setWidth 40 = outWord s.tAddr := by
      apply BitVec.eq_of_toNat_eq
      simp
    rw [hw]
    exact .txnCmd s hp hb
  case go =>
    obtain ⟨u, hu, rfl⟩ := (thenPhase_next _ _ _).mp h
    obtain ⟨hb, h | ⟨_, _, _, hc, rfl⟩⟩ := (ctrlWrite_next _ _ _).mp hu
    · exact absurd h.1 (by decide)
    · exact .txnGo s hp hb hc
  case poll => cases h; exact .txnPoll s hp
  case resp => cases h; exact .txnResp s hp

/-- What the host's own turn does. -/
theorem bootTurn_move (s t : State) (h : bootTurn s = .next t) : Move (.turn .boot) s t := by
  unfold bootTurn at h
  split at h
  case isFalse => cases h; exact .rest _ _ (by simp)
  case isTrue hf =>
  unfold bootMove at h
  cases hb : s.bState <;> simp only [hb] at h
  case reset => cases h; exact .bootInterrupts s hf hb
  case irq => cases h; exact .bootConsole s hf hb
  case console =>
    cases h
    unfold Machine.bootLoad
    split
    case isTrue hr => exact .bootLoad s hf hb hr.1 hr.2
    case isFalse => exact .rest _ _ (by simp)
  case loaded =>
    unfold bootPublish at h
    split at h
    case isTrue hm =>
      obtain ⟨_, _, rfl⟩ := (idMacWrite_next _ _ _).mp h
      exact .bootMac s hf hb hm
    case isFalse hm =>
      obtain ⟨hi, _, _, rfl⟩ := (idIpWrite_next _ _ _).mp h
      have hw : (s.ipAcc.setWidth 64).setWidth 32 = s.ipAcc := by
        apply BitVec.eq_of_toNat_eq
        simp
      rw [hw]
      exact .bootIp s hf hb hm hi
  case published => cases h; exact .bootMemory s hf hb
  case memReady =>
    cases h
    unfold bootRest
    split
    case isTrue => exact .rest _ _ (by simp)
    case isFalse hn => exact .bootIdle s hf hb (Bool.eq_false_iff.mpr hn)
  case idle => cases h; exact .rest _ _ (by simp)

/-- What a turn does. -/
theorem takeTurn_move (u : Turn) (s t : State) (h : takeTurn u s = .next t) : Move (.turn u) s t := by
  cases u
  case boot => exact bootTurn_move s t h
  case loader =>
    simp only [takeTurn, loaderTurn] at h
    split at h
    case isTrue hr => cases h; exact .request s hr.1 hr.2
    case isFalse => cases h; exact .rest _ _ (by simp)
  case sequencer => exact sequencerTurn_move s t h
  case transfer =>
    simp only [takeTurn, transferTurn] at h
    split at h
    case isTrue hs => cases h; exact .shift _ s (.inl rfl) hs
    case isFalse =>
      split at h
      case isTrue hc => cases h; exact .complete _ s (.inl rfl) hc
      case isFalse => cases h; exact .rest _ _ (by simp)
  case reset => cases h; exact .reset s

/-- A frame is a flash read or no operation (R91). -/
theorem decodeFrame_ok (w : BusWord) (i : Instr) (h : decodeFrame w = .ok i) : ∃ a, i = .flashRead a := by
  unfold decodeFrame at h
  rcases Decidable.em (w >>> 40 ≠ 0) with h1 | h1
  · rw [if_pos h1] at h
    cases h
  · rw [if_neg h1] at h
    rcases Decidable.em (w.extractLsb' 32 8 = Config.opcRead) with h2 | h2
    · rw [if_pos h2] at h
      cases h
      exact ⟨_, rfl⟩
    · rw [if_neg h2] at h
      cases h

/-- A request that is not the host's is an internal step or a frame (R13). -/
theorem fetched_fromHost (s : State) (q : Request) (i : Instr) (hq : fetched s q = .ok i) :
    i = .xferShift ∨ i = .xferComplete ∨ (∃ a, i = .flashRead a) ∨ fromHost q = true := by
  obtain ⟨sp, w⟩ := q
  cases sp
  case wire =>
    exact .inr (.inr (.inl (decodeFrame_ok w i hq)))
  case shift => cases hq; exact .inl rfl
  case complete => cases hq; exact .inr (.inl rfl)
  all_goals exact .inr (.inr (.inr rfl))

/-- What an operation does, if the host makes it or it is none of the host's. -/
theorem exec_move (q : Request) (i : Instr) (s t : State) (hq : fetched s q = .ok i)
    (ha : hostAtRest s = false ∨ fromHost q = false) (h : exec i s = .next t) : Move (.request q) s t := by
  have hh : fromHost q = true → hostAtRest s = false := fun hf => ha.resolve_right (by simp [hf])
  have hs := fetched_fromHost s q i hq
  cases i <;> simp only [reduceCtorEq, exists_const, false_or, true_or, Instr.flashRead.injEq] at hs <;> simp only [exec] at h
  case readByte a =>
    unfold execReadByte at h
    split at h <;> cases h
    case isTrue hr => exact .readByte q s a hq (hh hs) hr
    case isFalse => exact .ignored q s
  case loadIdentity =>
    unfold execLoadIdentity at h
    split at h <;> cases h
    case isTrue hr => exact .loadIdentity q s (hh hs) hr.1 hr.2
    case isFalse => exact .ignored q s
  case csWr v =>
    obtain ⟨he, h⟩ := (hostAccess_next _ _ _).mp h
    obtain ⟨hb, rfl⟩ := (csWrite_next _ _ _).mp h
    exact .hostCs q s v (hh hs) he hb
  case mosiWr v =>
    obtain ⟨he, h⟩ := (hostAccess_next _ _ _).mp h
    obtain ⟨hb, rfl⟩ := (mosiWrite_next _ _ _).mp h
    exact .hostMosi q s v (hh hs) he hb
  case ctrlWr v =>
    obtain ⟨he, h⟩ := (hostAccess_next _ _ _).mp h
    obtain ⟨hb, ⟨_, rfl⟩ | ⟨_, _, hl, hc, rfl⟩⟩ := (ctrlWrite_next _ _ _).mp h
    · exact .hostLength q s v (hh hs) he hb
    · exact .hostStart q s v (hh hs) he hb hc hl
  case xferShift =>
    unfold execXferShift at h
    split at h <;> cases h
    case isTrue hs => exact .shift _ s (.inr ⟨q, rfl⟩) hs
    case isFalse => exact .ignored q s
  case xferComplete =>
    unfold execXferComplete at h
    split at h <;> cases h
    case isTrue hc => exact .complete _ s (.inr ⟨q, rfl⟩) hc
    case isFalse => exact .ignored q s
  case flashRead a => cases h; exact .device q s _
  case idMacWr v =>
    obtain ⟨he, h⟩ := (hostAccess_next _ _ _).mp h
    obtain ⟨hm, hl, rfl⟩ := (idMacWrite_next _ _ _).mp h
    exact .hostMac q s v hq (hh hs) he hm hl
  case idIpWr v =>
    obtain ⟨he, h⟩ := (hostAccess_next _ _ _).mp h
    obtain ⟨hi, hl, hm, rfl⟩ := (idIpWrite_next _ _ _).mp h
    exact .hostIp q s v hq (hh hs) he hi hl hm
  all_goals
    obtain ⟨he, h⟩ := (hostAccess_next _ _ _).mp h
    cases h
    exact .hostSees q s _ (hh hs) he

/-- What a presented request does. -/
theorem perform_move (q : Request) (s t : State) (h : perform q s = .next t) : Move (.request q) s t := by
  unfold perform at h
  split at h
  case isTrue =>
    obtain ⟨rfl, _⟩ := (unmade_next _ _ _).mp h
    exact .ignored q _
  case isFalse ha =>
    unfold answer at h
    split at h
    case h_1 i hq =>
      refine exec_move q i s t hq ?_ h
      cases hr : hostAtRest s <;> cases hf : fromHost q <;> simp_all
    case h_2 e _ => cases e <;> cases h; exact .device q s _

/-- A step that answers a next state made one of the moves, from the state with the event taken off. -/
theorem step_move (s t : State) (h : step s = .next t) : Move (nextEvent s) s.advance t := by
  unfold step at h
  cases he : nextEvent s <;> simp only [he, runEvent] at h
  case turn u => exact takeTurn_move u _ _ h
  case request q => exact perform_move q _ _ h

end Sys2Proof.Machine
end

