-- ==== Sys2Proof/Tests/Slice0.lean ====
section
/-! SUPPORT. The model's own tests: expected values are the vectors of `spec/95_test_vectors.md` (V1 to V10) and words
written out from `spec/30_encoding.md`. Then, for every statement with hypotheses, a witness that meets them. -/

namespace Sys2Proof.Tests

open Sys2Proof Sys2Proof.Machine

/-! ### Helpers -/

/-- What a next state shows, or nothing. -/
def after {α : Type} (r : Result) (f : State → α) : Option α :=
  match r with
  | .next s => some (f s)
  | .fault _ => none
  | .refused _ => none

/-- The refusal, if it is one. -/
def refusal (r : Result) : Option Refusal :=
  match r with
  | .next _ => none
  | .fault _ => none
  | .refused e => some e

/-- What the decoder answers, or nothing. -/
def decoded (q : Request) : Option Instr := (decode q).toOption

/-- At rest, selected, with the frame of 0x3D0900 written; the device answers, undriven samples are 1. -/
def armed : State :=
  { State.reset with
    cs := true, mosi := 0x033D090000, flash := [(0x3D0900, 0xC0)],
    params := { Params.default with responds := [true], samples := List.replicate 40 true } }

/-- The host's transfer of that frame at its start (V4, `t` = 0). -/
def started : State :=
  { armed with ctrlLength := 40, txsr := 0x033D090000, bitcnt := 40, busy := true, tOrd := 1 }

/-- The same transfer before `t` = 34 (V4). -/
def nearEnd : State := { started with txsr := 0, miso := 0x03FFFFFFFF, bitcnt := 6, drawIdx := 32 }

/-- The same transfer after the fortieth shift (V4). -/
def shifted : State := { started with txsr := 0, miso := 0xFFFFFFFFC0, bitcnt := 0, drawIdx := 32 }

/-- The transaction `READ_BYTE 0x3D0900` in a phase before the transfer. -/
def early (p : TPhase) : State := { armed with tPhase := p, tAddr := 0x3D0900 }

/-- The same transaction polling its transfer. -/
def polling : State := { started with tPhase := .poll, tAddr := 0x3D0900 }

/-- The same transaction about to read the response. -/
def responding : State := { shifted with tPhase := .resp, tAddr := 0x3D0900, busy := false, done := true }

/-- The load of the record of S1 before its byte `i` is consumed, as far as the loader's own registers go. -/
def collecting (i : BitVec 4) : State :=
  { responding with
    lPhase := .wait, lIdx := i, lPtr := 0x3D0900 + i.setWidth 24, tAddr := 0x3D0900 + i.setWidth 24,
    mosi := outWord (0x3D0900 + i.setWidth 24), bState := .console }

/-- The loader asking for byte `i`. -/
def requesting (i : BitVec 4) : State :=
  { armed with lPhase := .req, lIdx := i, lPtr := 0x3D0900 + i.setWidth 24 }

/-- The record of S1. -/
def recordS1 : List Host.Cell :=
  [(0x3D0900, 0xC0), (0x3D0901, 0xA8), (0x3D0902, 0x01), (0x3D0903, 0x32), (0x3D0904, 0x12), (0x3D0905, 0x34),
   (0x3D0906, 0x56), (0x3D0907, 0x78), (0x3D0908, 0x9A), (0x3D0909, 0xBC)]

/-- The load of S1 is done and the host has the identity. -/
def loaded : State :=
  { State.reset with
    cs := true, done := true, mosi := 0x033D090900, ctrlLength := 40, miso := 0xFFFFFFFFBC,
    lPhase := .done, lIdx := 10, lPtr := 0x3D090A, ipAcc := 0xC0A80132, macAcc := 0x0000123456789ABC,
    bState := .loaded, tOrd := 10, flash := recordS1 }

/-- The MAC is written (V9). -/
def halfPublished : State := { loaded with idMac := some 0x0000123456789ABC }

/-- Both are written. -/
def published : State := { halfPublished with idIp := some 0xC0A80132, bState := .published }

/-- The end of a run. -/
def finished : State := { published with bState := .idle }

/-- A transaction whose device does not answer, after its last bit. -/
def hung : State := { polling with txsr := 0, bitcnt := 0, params := { Params.default with responds := [false] } }

/-- A state with this event first. -/
def coming (e : Event) (s : State) : State := { s with agenda := [e] }

/-! ### Well-formedness (R105) -/

theorem test_reserved_count_ill_formed : WellFormed (.ctrlWr 0x2802) = false ∧ WellFormed (.ctrlWr 0x28FF) = false := by
  decide

theorem test_reserved_length_ill_formed :
    WellFormed (.ctrlWr 0x0001) = false ∧ WellFormed (.ctrlWr 0x2901) = false ∧
      WellFormed (.ctrlWr 0xFF01) = false := by
  decide

theorem test_legal_control_well_formed :
    WellFormed (.ctrlWr 0x2801) = true ∧ WellFormed (.ctrlWr 0x0101) = true ∧ WellFormed (.ctrlWr 0xFF00) = true := by
  decide

/-! ### Decoding: words written out from R91 to R99, one for each constructor -/

/-- R96: `cmd_op` = 0 over the address 0x3D0900; V6 gives the same word as 0x03D0900. -/
theorem test_decode_read_byte :
    decoded ⟨.command, 0b0001111010000100100000000⟩ = some (.readByte 0x3D0900) ∧
      decoded ⟨.command, 0x0FFFFFF⟩ = some (.readByte 0xFFFFFF) := by
  decide

/-- R96: `cmd_op` = 1, address ignored (V6). -/
theorem test_decode_load_identity :
    decoded ⟨.command, 0b1000000000000000000000000⟩ = some .loadIdentity ∧
      decoded ⟨.command, 0x1ABCDEF⟩ = some .loadIdentity := by
  decide

/-- R93, R95, R92: register writes carry their value; the control word has `LENGTH` over `OPCNT`. -/
theorem test_decode_register_writes :
    decoded ⟨.write .spiCs, 0b1⟩ = some (.csWr 1) ∧
    decoded ⟨.write .spiMosi, 0b0000001100111101000010010000000000000000⟩ = some (.mosiWr 0x033D090000) ∧
    decoded ⟨.write .spiCtrl, 0b0010100000000001⟩ = some (.ctrlWr 0x2801) ∧
    decoded ⟨.write .spiStatus, 0⟩ = some (.statusWr 0) ∧ decoded ⟨.write .spiMiso, 0⟩ = some (.misoWr 0) := by
  decide

/-- R104: reads are selected by their register. -/
theorem test_decode_register_reads :
    decoded ⟨.read .spiStatus, 0⟩ = some .statusRd ∧ decoded ⟨.read .spiMiso, 0⟩ = some .misoRd ∧
    decoded ⟨.read .spiCs, 0⟩ = some .csRd ∧ decoded ⟨.read .spiMosi, 0⟩ = some .mosiRd ∧
    decoded ⟨.read .spiCtrl, 0⟩ = some .ctrlRd := by
  decide

/-- R143, R145: the internal steps have no bit pattern. -/
theorem test_decode_internal_steps :
    decoded ⟨.shift, 0⟩ = some .xferShift ∧ decoded ⟨.complete, 0⟩ = some .xferComplete := by
  decide

/-- R91: opcode, three address bytes, pad; V1. A pad of ones is harmless (R105 (f)). -/
theorem test_decode_flash_read :
    decoded ⟨.wire, 0b0000001100111101000010010000000000000000⟩ = some (.flashRead 0x3D0900) ∧
    decoded ⟨.wire, 0x03ABCDEFFF⟩ = some (.flashRead 0xABCDEF) := by
  decide

/-- R99. -/
theorem test_decode_identity_writes :
    decoded ⟨.write .idMac, 0x0000123456789ABC⟩ = some (.idMacWr 0x0000123456789ABC) ∧
    decoded ⟨.write .idIp, 0xC0A80132⟩ = some (.idIpWr 0xC0A80132) := by
  decide

/-- R105 (a), (b), R101, R43, R70, R104: what is no operation. -/
theorem test_decode_rejects :
    decoded ⟨.write .spiCtrl, 0x2802⟩ = none ∧ decoded ⟨.write .spiCtrl, 0x2901⟩ = none ∧
    decoded ⟨.command, 0x2000000⟩ = none ∧ decoded ⟨.read .idMac, 0⟩ = none ∧
    decoded ⟨.part .spiMosi, 0⟩ = none ∧ decoded ⟨.wire, 0x0B3D090000⟩ = none := by
  decide

/-- The table's words by their width (log 2). -/
theorem test_table_words :
    decodeTableWord 32 0x0000000 = some (.readByte 0) ∧ decodeTableWord 32 0x1000000 = some .loadIdentity ∧
    decodeTableWord 16 0x0000 = some (.ctrlWr 0) ∧ decodeTableWord 40 0x0300000000 = some (.flashRead 0) ∧
    decodeTableWord 8 0 = some (.csWr 0) := by
  decide

/-- A word placed by `withFetchWord` is the very next step's. -/
theorem test_fetch_word :
    after (step (State.reset.withFetchWord 32 0x03D0900)) (fun s => (s.tAddr, s.tPhase)) = some (0x3D0900, .sel) ∧
    after (step (State.reset.withFetchWord 8 1)) (·.cs) = some true := by
  decide

/-! ### Frame assembly and accumulation (V1, V7) -/

theorem test_out_word :
    outWord 0x000001 = 0x0300000100 ∧ outWord 0x800000 = 0x0380000000 ∧ outWord 0xFFFFFF = 0x03FFFFFF00 ∧
      outWord 0xABCDEF = 0x03ABCDEF00 := by
  decide

theorem test_ip_next :
    ipNext 0xDEADBEEF 0 0xC0 = 0x000000C0 ∧ ipNext 0x00C0A801 3 0x32 = 0xC0A80132 ∧
      ipNext 0xC0A80132 1 0x55 = 0xA8013255 := by
  decide

theorem test_mac_next :
    macNext 0xFFFFFFFFFFFFFFFF 4 0x12 = 0x12 ∧ macNext 0x123456789A 9 0xBC = 0x0000123456789ABC ∧
      macNext 0x000000FFFFFFFFFF 9 0xFF = 0x0000FFFFFFFFFFFF := by
  decide

/-! ### The operations (V2, V3, V4, V6, V9) -/

theorem test_read_byte_accepted :
    after (exec (.readByte 0x3D0900) State.reset) (fun s => (s.tAddr, s.tPhase, s.cs)) =
      some (0x3D0900, .sel, false) := by
  decide

theorem test_read_byte_ignored : exec (.readByte 0xFFFFFF) polling = .next polling := rfl

theorem test_load_identity_accepted :
    after (exec .loadIdentity State.reset) (fun s => (s.lPhase, s.lPtr, s.lIdx)) = some (.req, 0x3D0900, 0) := by
  decide

theorem test_second_load_ignored : exec .loadIdentity loaded = .next loaded := rfl

theorem test_cs_wr :
    after (exec (.csWr 0xFFFFFFFE) armed) (·.cs) = some false ∧ after (exec (.csWr 3) State.reset) (·.cs) = some true := by
  decide

theorem test_cs_wr_busy_refused : refusal (exec (.csWr 1) started) = some .writeWhileBusy := by decide

theorem test_mosi_wr_truncates : after (exec (.mosiWr 0x1FFFFFFFFFF) armed) (·.mosi) = some 0xFFFFFFFFFF := by decide

theorem test_ctrl_wr_start :
    after (exec (.ctrlWr 0x2801) { armed with done := true, tOrd := 4 })
      (fun s => (s.ctrlLength, s.txsr, s.bitcnt, s.busy, s.done, s.tOrd)) =
      some (40, 0x033D090000, 40, true, false, 5) ∧
    after (exec (.ctrlWr 0x0801) { armed with mosi := 0xA5 }) (fun s => (s.ctrlLength, s.txsr, s.bitcnt)) =
      some (8, 0xA500000000, 8) := by
  decide

theorem test_ctrl_wr_refused :
    refusal (exec (.ctrlWr 0x2802) armed) = some .reservedCount ∧
    refusal (exec (.ctrlWr 0x2901) armed) = some .reservedLength ∧
    refusal (exec (.ctrlWr 0x2801) State.reset) = some .startUnselected ∧
    refusal (exec (.ctrlWr 0x2801) started) = some .writeWhileBusy := by
  decide

theorem test_status_rd :
    after (exec .statusRd started) (·.wires.access) = some (some (.got .spiStatus 0)) ∧
    after (exec .statusRd loaded) (·.wires.access) = some (some (.got .spiStatus 1)) := by
  decide

theorem test_miso_rd :
    after (exec .misoRd State.reset) (·.wires.access) = some (some (.got .spiMiso 0)) ∧
    after (exec .misoRd { shifted with busy := false, done := true }) (·.wires.access) =
      some (some (.got .spiMiso 0xFFFFFFFFC0)) := by
  decide

theorem test_cs_rd : after (exec .csRd armed) (·.wires.access) = some (some (.got .spiCs 1)) := by decide

theorem test_mosi_rd : after (exec .mosiRd shifted) (·.wires.access) = some (some (.got .spiMosi 0x033D090000)) := by
  decide

theorem test_ctrl_rd : after (exec .ctrlRd started) (·.wires.access) = some (some (.got .spiCtrl 0x2800)) := by decide

theorem test_status_wr_ignored : after (exec (.statusWr 0) loaded) (·.done) = some true := by decide

theorem test_miso_wr_ignored : after (exec (.misoWr 0) shifted) (·.miso) = some 0xFFFFFFFFC0 := by decide

/-- V4, `t` = 0. -/
theorem test_shift_first :
    after (exec .xferShift started) (fun s => (s.txsr, s.miso, s.bitcnt, s.wires.mosiBit, s.wires.misoBit)) =
      some (0x067A120000, 0x0000000001, 39, some false, some true) := by
  decide

/-- V4, `t` = 34: bit 5 of 0xC0 comes from the device. -/
theorem test_shift_device_bit :
    after (exec .xferShift nearEnd) (fun s => (s.txsr, s.miso, s.bitcnt, s.drawIdx)) = some (0, 0x07FFFFFFFE, 5, 32) := by
  decide

/-- P4: a device that does not answer drives nothing, so the sample is a draw (1 here). -/
theorem test_shift_unanswered :
    after (exec .xferShift { nearEnd with params := { nearEnd.params with responds := [false] } })
      (fun s => (s.miso, s.drawIdx, s.wires.misoBit)) = some (0x07FFFFFFFF, 33, some true) := by
  decide

/-- R11, R256: an internal step that is not enabled changes nothing, in the hang too. -/
theorem test_disabled_internal_steps : exec .xferShift armed = .next armed ∧ exec .xferComplete hung = .next hung :=
  ⟨rfl, rfl⟩

theorem test_complete :
    after (exec .xferComplete shifted) (fun s => (s.busy, s.done, sel s)) = some (false, true, false) := by
  decide

/-- R150's example, bit by bit: `DevOut(32..39)` = 1,1,0,0,0,0,0,0. -/
theorem test_device_bits :
    (List.range 8).map (fun i => devOut (flashAt armed) 0x033D090000 40 (32 + i)) =
      [some true, some true, some false, some false, some false, some false, some false, some false] := by
  decide

/-- R150's example as a whole frame: 32 draws (1 here), then 0xC0. -/
theorem test_flash_read :
    after (exec (.flashRead 0x3D0900) armed) (fun s => (s.wires.devByte, s.wires.samples)) =
      some (some 0xC0, some 0xFFFFFFFFC0) := by
  decide +kernel

/-- R105 (e), U8: opcode 0x0B over the same address; all forty samples are draws (1 here). -/
theorem test_foreign_frame :
    after (step (coming (.request ⟨.wire, 0x0B3D090000⟩) armed))
      (fun s => (s.wires.devByte, s.wires.samples, s.drawIdx, s.miso)) =
      some (none, some 0xFFFFFFFFFF, 40, 0) := by
  decide +kernel

/-- R229: in `B_IDLE` a presented `READ_BYTE` and a presented `CS_WR` are no steps of the host. -/
theorem test_host_at_rest :
    after (step (coming (.request (encode (.readByte 0))) finished)) (·.tPhase) = some .idle ∧
    after (step (coming (.request (encode (.csWr 0))) finished)) (·.cs) = some true := by
  decide

/-- V2 (`CTRL_WR 0x2802` in any state), R43, U6, R70: what is refused is refused in `B_IDLE` and in a memory call that
does not return too. -/
theorem test_refused_at_rest :
    ∀ s ∈ [finished, { published with memHung := true }],
      refusal (step (coming (.request ⟨.write .spiCtrl, 0x2802⟩) s)) = some .reservedCount ∧
      refusal (step (coming (.request ⟨.read .idMac, 0⟩) s)) = some .writeOnlyRead ∧
      refusal (step (coming (.request (encode (.idMacWr 0))) s)) = some .identityRewrite ∧
      refusal (step (coming (.request ⟨.part .spiMosi, 0⟩) s)) = some .partialAccess := by
  decide

/-- R72: an identity write during a block command is refused. -/
theorem test_identity_write_during_command :
    refusal (exec (.idMacWr 0) { loaded with tPhase := .poll }) = some .notEntitled := by
  decide

/-- R228: two calls of the memory routine, the first without return; a reset lies between them (R270). -/
theorem test_memory_calls :
    after (takeTurn .boot { published with params := { Params.default with memReturns := [false, true] } })
      (fun s => (s.bState, s.memHung, s.memCalls)) = some (.published, true, 1) ∧
    after (takeTurn .boot
        { published with params := { Params.default with memReturns := [false, true] }, memCalls := 1 })
      (fun s => (s.bState, s.memHung, s.memCalls)) = some (.memReady, false, 2) := by
  decide

/-- R232: `B_IDLE` is not entered while a transfer runs. -/
theorem test_idle_waits_for_transfer :
    after (takeTurn .boot { started with bState := .memReady }) (·.bState) = some .memReady ∧
    after (takeTurn .boot { published with bState := .memReady }) (·.bState) = some .idle := by
  decide

theorem test_id_mac_wr :
    after (exec (.idMacWr 0x0000123456789ABC) loaded) (fun s => (s.idMac, s.idIp, s.bState)) =
      some (some 0x0000123456789ABC, none, .loaded) ∧
    refusal (exec (.idMacWr 0) halfPublished) = some .identityRewrite := by
  decide

theorem test_id_ip_wr :
    after (exec (.idIpWr 0xC0A80132) halfPublished) (fun s => (s.idIp, s.bState)) =
      some (some 0xC0A80132, .published) ∧
    refusal (exec (.idIpWr 0xC0A80132) loaded) = some .ipBeforeMac := by
  decide

/-! ### The agents -/

/-- V6: select, output word, start. -/
theorem test_sequencer_phases :
    after (takeTurn .sequencer { early .sel with cs := false }) (fun s => (s.cs, s.tPhase)) = some (true, .cmd) ∧
    after (takeTurn .sequencer { early .cmd with mosi := 0 }) (fun s => (s.mosi, s.tPhase)) =
      some (0x033D090000, .go) ∧
    after (takeTurn .sequencer (early .go)) (fun s => (s.txsr, s.bitcnt, s.busy, s.tPhase)) =
      some (0x033D090000, 40, true, .poll) := by
  decide

theorem test_response :
    after (takeTurn .sequencer responding) (fun s => (s.wires.rsp, s.tData, s.tPhase)) =
      some (some (.byte 0xC0), 0xC0, .idle) := by
  decide

/-- R193's example. -/
theorem test_fourth_byte :
    after (takeTurn .sequencer { collecting 3 with ipAcc := 0x00C0A801, miso := 0xFFFFFFFF32 })
      (fun s => (s.ipAcc, s.lIdx, s.lPtr, s.lPhase)) = some (0xC0A80132, 4, 0x3D0904, .req) := by
  decide

/-- R194's example. -/
theorem test_tenth_byte :
    after (takeTurn .sequencer
        { collecting 9 with ipAcc := 0xC0A80132, macAcc := 0x123456789A, miso := 0xFFFFFFFFBC })
      (fun s => (s.wires.rsp, s.lPhase, s.lPtr, s.bState)) =
      some (some (.identity 0xC0A80132 0x0000123456789ABC), .done, 0x3D090A, .loaded) := by
  decide

theorem test_reset_wins :
    after (step (coming (.turn .reset) polling)) (fun s => (s.busy, s.tPhase, s.cs, s.miso)) =
      some (false, .idle, false, 0) := by
  decide

/-! ### Witnesses: states and operands that meet each statement's hypotheses -/

/-- The tenth byte of S1's load, about to be consumed. -/
def lastByte : State :=
  { collecting 9 with
    ipAcc := 0xC0A80132, macAcc := 0x123456789A, miso := 0xFFFFFFFFBC, flash := recordS1, tOrd := 10 }

/-- The transaction after its transfer, not yet polled. -/
def arrived : State := { polling with txsr := 0, miso := 0xFFFFFFFFC0, bitcnt := 0, busy := false, done := true }

/-- A one-bit transfer of the host at its start (V5). -/
def oneBit : State :=
  { armed with mosi := 1, ctrlLength := 1, txsr := 0x8000000000, bitcnt := 1, busy := true, tOrd := 1 }

theorem witness_control_started : ControlInv started := by constructor <;> decide
theorem witness_control_oneBit : ControlInv oneBit := by constructor <;> decide
theorem witness_control_nearEnd : ControlInv nearEnd := by constructor <;> decide
theorem witness_control_shifted : ControlInv shifted := by constructor <;> decide
theorem witness_control_sel : ControlInv (early .sel) := by constructor <;> decide
theorem witness_control_cmd : ControlInv (early .cmd) := by constructor <;> decide
theorem witness_control_go : ControlInv (early .go) := by constructor <;> decide
theorem witness_control_polling : ControlInv polling := by constructor <;> decide
theorem witness_control_responding : ControlInv responding := by constructor <;> decide
theorem witness_control_first_request : ControlInv (requesting 0) := by constructor <;> decide
theorem witness_control_last_request : ControlInv (requesting 9) := by constructor <;> decide
theorem witness_control_last_byte : ControlInv lastByte := by constructor <;> decide
theorem witness_control_loaded : ControlInv loaded := by constructor <;> decide

theorem witness_data_polling : DataInv polling := by
  refine ⟨fun _ _ _ j hj => ?_, by decide, by decide, by decide⟩
  have h : j + 40 < 8 := hj
  omega

theorem witness_data_nearEnd : DataInv { nearEnd with tPhase := .poll, tAddr := 0x3D0900 } := by
  refine ⟨fun _ _ _ j hj => ?_, by decide, by decide, by decide⟩
  have h : j + 6 < 8 := hj
  have h : j < 2 := by omega
  interval_cases j <;> decide

theorem witness_data_responding : DataInv responding :=
  ⟨fun h => absurd h (by decide), by decide, by decide, by decide⟩
theorem witness_data_last_byte : DataInv lastByte :=
  ⟨fun h => absurd h (by decide), by decide, by decide, by decide⟩
theorem witness_data_loaded : DataInv loaded :=
  ⟨fun h => absurd h (by decide), by decide, by decide, by decide⟩

theorem witness_host_loaded : HostInv loaded := by constructor <;> decide
theorem witness_host_halfPublished : HostInv halfPublished := by constructor <;> decide
theorem witness_host_finished : HostInv finished := by constructor <;> decide

theorem witness_pub_halfPublished : PubInv halfPublished := by
  refine ⟨fun v hv => ?_, fun v hv => ?_⟩
  · exact (Option.some.inj hv).symm
  · cases hv

theorem witness_ReadByteAcceptedOrIgnored :
    (armed.tPhase = .idle ∧ (armed.lPhase = .idle ∨ armed.lPhase = .done) ∧ armed.busy = false) ∧
    ¬ (started.tPhase = .idle ∧ (started.lPhase = .idle ∨ started.lPhase = .done) ∧ started.busy = false) ∧
    polling.tPhase ≠ .idle := by
  decide

theorem witness_LoadIdentityAcceptedOnce :
    (armed.tPhase = .idle ∧ armed.lPhase = .idle ∧ armed.busy = false) ∧
    ¬ (loaded.tPhase = .idle ∧ loaded.lPhase = .idle ∧ loaded.busy = false) ∧
    (requesting 0).lPhase = .req ∧ (collecting 0).lPhase = .wait := by
  decide

theorem witness_CsWriteStoresBitZero : hostEntitled State.reset = true ∧ State.reset.busy = false := by decide

theorem witness_MosiWriteStoresWord : hostEntitled loaded = true ∧ loaded.busy = false := by decide

/-- One operand for each case, at the ends of its range. -/
theorem witness_CtrlWriteAllCases :
    hostEntitled armed = true ∧ armed.busy = false ∧ armed.cs = true ∧
    hostEntitled State.reset = true ∧ State.reset.busy = false ∧ State.reset.cs = false ∧
    (0x2800 : BusWord).extractLsb' 0 8 = 0 ∧
    ((0x0101 : BusWord).extractLsb' 0 8 = 1 ∧ ((0x0101 : BusWord).extractLsb' 8 8).toNat = 1) ∧
    ((0x2801 : BusWord).extractLsb' 0 8 = 1 ∧ ((0x2801 : BusWord).extractLsb' 8 8).toNat = 40) ∧
    ((0x0001 : BusWord).extractLsb' 0 8 = 1 ∧ (0x0001 : BusWord).extractLsb' 8 8 = 0) ∧
    ((0x2901 : BusWord).extractLsb' 0 8 = 1 ∧ ((0x2901 : BusWord).extractLsb' 8 8).toNat = 41) ∧
    ((0x2802 : BusWord).extractLsb' 0 8).toNat = 2 ∧ ((0x28FF : BusWord).extractLsb' 0 8).toNat = 255 := by
  decide

theorem witness_StatusReadReturnsDone :
    hostEntitled started = true ∧ started.done = false ∧ hostEntitled loaded = true ∧ loaded.done = true := by
  decide

theorem witness_MisoReadReturnsResponse : hostEntitled loaded = true ∧ hostEntitled shifted = true := by decide

theorem witness_ReadBacksReturnStored : hostEntitled State.reset = true ∧ hostEntitled started = true := by decide

theorem witness_ReadOnlyWritesIgnored : hostEntitled loaded = true ∧ loaded.done = true := by decide

theorem witness_BusyGatesOnlyWrites : hostEntitled started = true ∧ started.busy = true := by decide

theorem witness_HostRefusedDuringCommand :
    polling.tPhase ≠ .idle ∧ (requesting 0).lPhase = .req ∧ (collecting 9).lPhase = .wait := by
  decide

/-- An undriven period, a driven one, the last period of the shortest transfer, and a device that does not answer. -/
theorem witness_ShiftMovesOneBit :
    (started.busy = true ∧ started.bitcnt ≠ 0 ∧ devSample started = none) ∧
    (nearEnd.busy = true ∧ nearEnd.bitcnt ≠ 0 ∧ devSample nearEnd = some false ∧ nearEnd.cs = true ∧
      flashResponds nearEnd (nearEnd.tOrd - 1) = true) ∧
    (oneBit.busy = true ∧ oneBit.bitcnt = 1) ∧
    ∃ s : State, s.busy = true ∧ s.bitcnt ≠ 0 ∧ flashResponds s (s.tOrd - 1) = false :=
  ⟨by decide, by decide, by decide, { polling with params := { Params.default with responds := [false] } }, by decide⟩

theorem witness_CompleteSetsDone :
    shifted.busy = true ∧ shifted.bitcnt = 0 ∧ flashResponds shifted (shifted.tOrd - 1) = true := by
  decide

theorem witness_DisabledInternalStepsChangeNothing :
    armed.busy = false ∧ shifted.bitcnt = 0 ∧ oneBit.bitcnt ≠ 0 ∧ flashResponds hung (hung.tOrd - 1) = false := by
  decide

/-- Frames of other opcodes, one below 0x03 and the greatest. -/
theorem witness_ForeignFrameAllDraws :
    (nextEvent (coming (.request ⟨.wire, 0x0B3D090000⟩) armed) = .request ⟨.wire, 0x0B3D090000⟩ ∧
      (0x0B3D090000 : BusWord).toNat < 2 ^ 40 ∧ (0x0B3D090000 : BusWord).extractLsb' 32 8 ≠ 0x03) ∧
    ((0x02FFFFFFFF : BusWord).toNat < 2 ^ 40 ∧ (0x02FFFFFFFF : BusWord).extractLsb' 32 8 ≠ 0x03) ∧
    ((0xFFFFFFFFFF : BusWord).toNat < 2 ^ 40 ∧ (0xFFFFFFFFFF : BusWord).extractLsb' 32 8 ≠ 0x03) :=
  ⟨⟨rfl, by decide, by decide⟩, by decide, by decide⟩

theorem witness_MacWriteStores : hostEntitled loaded = true ∧ loaded.bState = .loaded ∧ loaded.idMac = none := by
  decide

theorem witness_IpWriteStoresAndPublishes :
    hostEntitled halfPublished = true ∧ halfPublished.bState = .loaded ∧ halfPublished.idMac ≠ none ∧
      halfPublished.idIp = none := by
  decide

theorem witness_IdentityWritesRefused :
    (hostEntitled halfPublished = true ∧ halfPublished.idMac ≠ none) ∧
    (hostEntitled armed = true ∧ armed.idMac = none ∧ armed.bState ≠ .loaded ∧ armed.idIp = none) ∧
    (hostEntitled published = true ∧ published.idIp ≠ none) ∧
    (hostEntitled loaded = true ∧ loaded.idIp = none ∧ loaded.bState = .loaded ∧ loaded.idMac = none) := by
  decide

theorem witness_SequencerWritesInOrder :
    ControlInv (early .sel) ∧ (early .sel).tPhase = .sel ∧ ControlInv (early .cmd) ∧ (early .cmd).tPhase = .cmd ∧
      ControlInv (early .go) ∧ (early .go).tPhase = .go :=
  ⟨witness_control_sel, rfl, witness_control_cmd, rfl, witness_control_go, rfl⟩

theorem witness_PollLeavesOnlyOnDone :
    (polling.tPhase = .poll ∧ polling.done = false) ∧ (arrived.tPhase = .poll ∧ arrived.done = true) := by
  decide

theorem witness_ResponseDeliveredToHost : responding.tPhase = .resp ∧ responding.lPhase ≠ .wait := by decide

/-- The ends of both fields: indices 0, 3, 4, 8 and the last, 9. -/
theorem witness_LoaderConsumesByte :
    (∀ i ∈ [(0 : BitVec 4), 3, 4, 8], (collecting i).lPhase = .wait ∧ (collecting i).tPhase = .resp ∧
      (collecting i).lIdx.toNat < 9) ∧
    (collecting 9).lPhase = .wait ∧ (collecting 9).tPhase = .resp ∧ (collecting 9).lIdx = 9 := by
  decide

/-- The tenth byte with the host in `B_CONSOLE`, and with the host elsewhere. -/
theorem witness_ResponseMovesWaitingHostOnly :
    (∃ t, takeTurn .sequencer lastByte = .next t ∧ t.bState = .loaded) ∧
    ∃ t, takeTurn .sequencer { lastByte with bState := .irq } = .next t ∧ t.bState = .irq :=
  ⟨⟨_, rfl, rfl⟩, ⟨_, rfl, rfl⟩⟩

theorem witness_LoaderRequestsAtPointer :
    ControlInv (requesting 0) ∧ (requesting 0).lPhase = .req ∧ ControlInv (requesting 9) ∧
      (requesting 9).lPhase = .req :=
  ⟨witness_control_first_request, rfl, witness_control_last_request, rfl⟩

/-- One state for each clause; the last two, a host held by a command and one held by its memory call. -/
theorem witness_BootOpaqueSteps :
    (∀ s ∈ [State.reset, { armed with bState := .irq }, published, { published with bState := .memReady },
      { started with bState := .memReady }, finished], hostEntitled s = true ∧ s.memHung = false) ∧
    State.reset.bState = .reset ∧ published.bState = .published ∧ finished.bState = .idle ∧
    started.busy = true ∧ published.busy = false ∧
    hostEntitled polling = false ∧ ({ published with memHung := true } : State).memHung = true := by
  decide

theorem witness_BootOffersLoad :
    (∃ s : State, s.memHung = false ∧ s.bState = .console ∧ cmdReady s = true ∧ s.lPhase = .idle) ∧
    ∃ s : State, s.memHung = false ∧ s.bState = .console ∧ ¬ (cmdReady s = true ∧ s.lPhase = .idle) :=
  ⟨⟨{ armed with bState := .console }, by decide⟩, ⟨collecting 0, by decide⟩⟩

theorem witness_BootPublishesMacThenIp :
    (hostFree loaded = true ∧ loaded.bState = .loaded ∧ loaded.idMac = none) ∧
    (hostFree halfPublished = true ∧ halfPublished.bState = .loaded ∧ halfPublished.idMac ≠ none ∧
      halfPublished.idIp = none) := by
  decide

theorem witness_ResetWinsFromAnyState :
    nextEvent (coming (.turn .reset) polling) = .turn .reset ∧ nextEvent (coming (.turn .reset) hung) = .turn .reset := by
  decide

/-- A host with steps to take, a device's frame, and a host at rest. -/
theorem witness_StepRunsDecoded :
    (∀ s ∈ [armed, finished],
      nextEvent (coming (.request ⟨.write .spiCtrl, 0x2801⟩) s) = .request ⟨.write .spiCtrl, 0x2801⟩ ∧
      fetched (coming (.request ⟨.write .spiCtrl, 0x2801⟩) s) ⟨.write .spiCtrl, 0x2801⟩ = .ok (.ctrlWr 0x2801)) ∧
    hostAtRest armed = false ∧ hostAtRest finished = true ∧ fromHost ⟨.write .spiCtrl, 0x2801⟩ = true ∧
    (∃ t, exec (.ctrlWr 0x2801) finished = .next t) ∧ exec (.idMacWr 0) finished = .refused .identityRewrite ∧
    fetched finished ⟨.wire, 0x033D090000⟩ = .ok (.flashRead 0x3D0900) ∧ fromHost ⟨.wire, 0x033D090000⟩ = false := by
  refine ⟨fun s hs => ?_, by decide, by decide, by decide, ⟨_, rfl⟩, rfl, rfl, by decide⟩
  simp only [List.mem_cons, List.not_mem_nil, or_false] at hs
  rcases hs with rfl | rfl <;> exact ⟨rfl, rfl⟩

/-- Seven addresses, pairwise distinct, and none of them 4. -/
def someMap : AddrMap := ⟨0, 8, 16, 24, 32, 40, 48⟩

/-- `armed` with those addresses. -/
def mapped : State := { armed with params := { armed.params with addrs := some someMap } }

/-- One presented word for each clause, at the ends of its range. -/
theorem witness_StepRefusesRejected :
    (0x2000000 : BusWord).toNat = 2 ^ 25 ∧
    ((0x2802 : BusWord).extractLsb' 0 8).toNat = 2 ∧
    ((0x0001 : BusWord).extractLsb' 0 8 = 1 ∧ (0x0001 : BusWord).extractLsb' 8 8 = 0) ∧
    ((0x2901 : BusWord).extractLsb' 0 8 = 1 ∧ ((0x2901 : BusWord).extractLsb' 8 8).toNat = 41) ∧
    (∀ r, (addrMap mapped).addr r ≠ 4) ∧ (0x10000000000 : BusWord).toNat = 2 ^ 40 ∧
    ∀ q : Request, nextEvent (coming (.request q) mapped) = .request q :=
  ⟨by decide, by decide, by decide, by decide, fun r => by cases r <;> decide, by decide, fun _ => rfl⟩

theorem witness_DecodeEncodeAgree :
    WellFormed (.ctrlWr 0x2801) = true ∧ WellFormed (.readByte 0xFFFFFF) = true ∧ WellFormed .xferShift = true := by
  decide

theorem witness_DecodedAreWellFormed :
    decode ⟨.write .spiCtrl, 0x2801⟩ = .ok (.ctrlWr 0x2801) ∧
    (WellFormed (.readByte 5) = true ∧ encode (.readByte 5) = encode (.readByte 5)) :=
  ⟨rfl, rfl, rfl⟩

theorem witness_BusAddressSelectsRegister :
    (∀ r r', someMap.addr r = someMap.addr r' → r = r') ∧ ∀ r, someMap.addr r ≠ 4 := by
  constructor
  · intro r r'
    cases r <;> cases r' <;> decide
  · intro r
    cases r <;> decide

/-- The ends of each clause: times 0, 31, 32 and 39, and another opcode. -/
theorem witness_DeviceKeepsContract :
    ((40 : Nat) ≤ 40 ∧ (0 : Nat) < 40 ∧ (31 : Nat) < 40 ∧ (32 : Nat) < 40 ∧ (39 : Nat) < 40) ∧
    (∀ u < 8, (0x033D090000 : Frame).getLsbD (40 - 1 - u) = (0x03 : BitVec 8).getLsbD (7 - u)) ∧
    (∀ u < 24, (0x033D090000 : Frame).getLsbD (40 - 1 - (8 + u)) = (0x3D0900 : FlashAddr).getLsbD (23 - u)) ∧
    ∃ u < 8, (0x0B3D090000 : Frame).getLsbD (40 - 1 - u) ≠ (0x03 : BitVec 8).getLsbD (7 - u) := by
  decide

theorem witness_EveryStepKeepsControl :
    ControlInv (coming (.turn .transfer) polling) ∧ ∃ t, step (coming (.turn .transfer) polling) = .next t :=
  ⟨by constructor <;> decide, _, rfl⟩

theorem witness_EveryStepKeepsData :
    ControlInv (coming (.turn .transfer) polling) ∧ DataInv (coming (.turn .transfer) polling) ∧
      ∃ t, step (coming (.turn .transfer) polling) = .next t := by
  refine ⟨by constructor <;> decide, ⟨fun _ _ _ j hj => ?_, by decide, by decide, by decide⟩, _, rfl⟩
  have h : j + 40 < 8 := hj
  omega

theorem witness_EveryStepKeepsHostOrder :
    HostInv (coming (.turn .boot) halfPublished) ∧ ∃ t, step (coming (.turn .boot) halfPublished) = .next t :=
  ⟨by constructor <;> decide, _, rfl⟩

/-- The host presents the IP it received; the step publishes. -/
theorem witness_PublishedIsWhatWasLoaded :
    ∃ s t, HostInv s ∧ PubInv s ∧ PassesReceived s ∧ step s = .next t ∧ hasPublished t = true := by
  refine ⟨coming (.request (encode (.idIpWr 0xC0A80132))) halfPublished, _, by constructor <;> decide,
    ⟨fun v hv => (Option.some.inj hv).symm, fun v hv => (by cases hv)⟩, fun q hq => ?_, rfl, rfl⟩
  have hq : Event.request (encode (.idIpWr 0xC0A80132)) = .request q := hq
  injection hq with hq
  subst hq
  refine ⟨fun v hv => ?_, fun v hv => ?_⟩
  · have hv : Except.ok (ε := DecodeError) (Instr.idIpWr 0xC0A80132) = .ok (.idMacWr v) := hv
    cases hv
  · have hv : Except.ok (ε := DecodeError) (Instr.idIpWr 0xC0A80132) = .ok (.idIpWr v) := hv
    cases hv
    decide

theorem witness_LoadedMacHasZeroTop : ControlInv loaded ∧ DataInv loaded ∧ loaded.lPhase = .done :=
  ⟨witness_control_loaded, witness_data_loaded, rfl⟩

/-- A byte for the host, and the identity after the tenth byte. -/
theorem witness_DeliveredIsFromFlash :
    (∃ s t b, ControlInv s ∧ DataInv s ∧ step s = .next t ∧ t.wires.rsp = some (.byte b)) ∧
    ∃ s t ip mac, ControlInv s ∧ DataInv s ∧ step s = .next t ∧ t.wires.rsp = some (.identity ip mac) :=
  ⟨⟨coming (.turn .sequencer) responding, _, _, by constructor <;> decide,
      ⟨fun h => absurd h (by decide), by decide, by decide, by decide⟩, rfl, rfl⟩,
    ⟨coming (.turn .sequencer) lastByte, _, _, _, by constructor <;> decide,
      ⟨fun h => absurd h (by decide), by decide, by decide, by decide⟩, rfl, rfl⟩⟩

theorem witness_ResponseOnlyOnDelivery :
    (∃ t b, step (coming (.turn .sequencer) responding) = .next t ∧ t.wires.rsp = some (.byte b)) ∧
    ∃ t ip mac, step (coming (.turn .sequencer) lastByte) = .next t ∧ t.wires.rsp = some (.identity ip mac) :=
  ⟨⟨_, _, rfl, rfl⟩, ⟨_, _, _, rfl, rfl⟩⟩

theorem witness_LoadedIdentityStays :
    loaded.lPhase = .done ∧ nextEvent (coming (.turn .boot) loaded) ≠ .turn .reset ∧
      ∃ t, step (coming (.turn .boot) loaded) = .next t :=
  ⟨rfl, by decide, _, rfl⟩

theorem witness_FlashIsNeverWritten :
    (∃ t, step (coming (.turn .transfer) { polling with flash := [] }) = .next t) ∧ Memory.wf [] = true :=
  ⟨⟨_, rfl⟩, by decide⟩

/-- `DONE` is set by the completion, and cleared by a start and by reset. -/
theorem witness_DoneChangesOnlyAsStated :
    (∃ t, step (coming (.turn .transfer) shifted) = .next t ∧ shifted.done = false ∧ t.done = true) ∧
    (∃ t, step (coming (.request (encode (.ctrlWr 0x2801))) loaded) = .next t ∧ loaded.done = true ∧
      t.done = false) ∧
    ∃ t, step (coming (.turn .reset) loaded) = .next t ∧ loaded.done = true ∧ t.done = false :=
  ⟨⟨_, rfl, rfl, rfl⟩, ⟨_, rfl, rfl, rfl⟩, ⟨_, rfl, rfl, rfl⟩⟩

theorem witness_SelectEnableIsSticky :
    polling.cs = true ∧ Turn.sequencer ≠ .reset ∧ ∃ t, takeTurn .sequencer polling = .next t :=
  ⟨rfl, by decide, _, rfl⟩

/-- A start, and a step that is none. -/
theorem witness_OrdinalCountsStarts :
    (∃ t, step (coming (.turn .sequencer) (early .go)) = .next t ∧ t.tOrd = 1) ∧
    ∃ t, step (coming (.turn .transfer) shifted) = .next t ∧ t.tOrd = 1 :=
  ⟨⟨_, rfl, rfl⟩, ⟨_, rfl, rfl⟩⟩

theorem witness_HostMovesForwardOnly :
    nextEvent (coming (.turn .boot) halfPublished) ≠ .turn .reset ∧
      ∃ t, step (coming (.turn .boot) halfPublished) = .next t ∧ t.bState = .published :=
  ⟨by decide, _, rfl, rfl⟩

theorem witness_SelectFramesTransfer : ControlInv started ∧ shiftEnabled started = true :=
  ⟨witness_control_started, by decide⟩

theorem witness_NoTurnStops : ControlInv halfPublished ∧ HostInv halfPublished :=
  ⟨by constructor <;> decide, witness_host_halfPublished⟩

theorem witness_HangIsForever :
    Hung (coming (.turn .sequencer) hung) ∧ nextEvent (coming (.turn .sequencer) hung) ≠ .turn .reset ∧
      ∃ t, step (coming (.turn .sequencer) hung) = .next t :=
  ⟨by unfold Hung; decide, by decide, _, rfl⟩

theorem witness_FinalStateRests :
    HostInv finished ∧ Final finished ∧
    (∃ q t, nextEvent (coming (.request q) finished) = .request q ∧ fromHost q = true ∧
      step (coming (.request q) finished) = .next t) ∧
    (∀ v, nextEvent (coming (.request ⟨.write .idIp, v⟩) finished) = .request ⟨.write .idIp, v⟩) ∧
    ∃ t, nextEvent (coming (.request ⟨.shift, 0⟩) finished) ≠ .turn .reset ∧
      step (coming (.request ⟨.shift, 0⟩) finished) = .next t :=
  ⟨witness_host_finished, rfl, ⟨encode (.readByte 0), _, rfl, rfl, rfl⟩, fun _ => rfl, _, by decide, rfl⟩

/-- The one-bit transfer, shifted, completed, and then at rest for ever. -/
def oneBitRun : Nat → State
  | 0 => oneBit
  | 1 => shiftStep oneBit
  | _ + 2 => completeStep { shiftStep oneBit with wires := .quiet }

theorem witness_FairTransferCompletes :
    Execution (fun _ => .turn .transfer) oneBitRun ∧ WeaklyFair (fun _ => .turn .transfer) oneBitRun ∧
    (∀ n : Nat, (fun _ => Event.turn .transfer) n ≠ .turn .reset) ∧ (oneBitRun 0).busy = true ∧
    flashResponds (oneBitRun 0) ((oneBitRun 0).tOrd - 1) = true :=
  ⟨fun n => match n with
    | 0 => rfl
    | 1 => rfl
    | _ + 2 => rfl,
    fun n _ => ⟨n, Nat.le_refl n, .inl rfl⟩, fun _ h => (by cases h), rfl, rfl⟩

/-- The longest and the shortest transfer. -/
theorem witness_WholeTransferResult :
    (∃ s : State, ControlInv s ∧ s.busy = true ∧ s.bitcnt.toNat = s.ctrlLength.toNat ∧ s.ctrlLength = 40 ∧
      flashResponds s (s.tOrd - 1) = true ∧ s.agenda = turns (List.replicate (s.ctrlLength.toNat + 1) .transfer) ++ []) ∧
    ∃ s : State, ControlInv s ∧ s.busy = true ∧ s.bitcnt.toNat = s.ctrlLength.toNat ∧ s.ctrlLength = 1 ∧
      flashResponds s (s.tOrd - 1) = true ∧ s.agenda = turns (List.replicate (s.ctrlLength.toNat + 1) .transfer) ++ [] :=
  ⟨⟨{ started with agenda := turns (List.replicate 41 .transfer) }, by constructor <;> decide, rfl, rfl, rfl, rfl, rfl⟩,
    ⟨{ oneBit with agenda := turns (List.replicate 2 .transfer) }, by constructor <;> decide, rfl, rfl, rfl, rfl, rfl⟩⟩

/-- Forty shifts with a poll before each. -/
def polledShifts : List Turn := (List.replicate 40 [Turn.sequencer, .transfer]).flatten

theorem witness_ReadByteReturnsFlash :
    ∃ (s : State) (a : FlashAddr) (ts : List Turn) (rest : List Event), hostAtRest s = false ∧ cmdReady s = true ∧
      flashResponds s s.tOrd = true ∧ (∀ u ∈ ts, u = .sequencer ∨ u = .transfer) ∧ ts.count .transfer = 40 ∧
      s.agenda = .request (encode (.readByte a)) ::
        turns ([.sequencer, .sequencer, .sequencer] ++ ts ++ [.transfer, .sequencer, .sequencer]) ++ rest :=
  ⟨{ armed with
      agenda := .request (encode (.readByte 0x3D0900)) ::
        turns ([.sequencer, .sequencer, .sequencer] ++ polledShifts ++ [.transfer, .sequencer, .sequencer]) },
    0x3D0900, polledShifts, [], by decide, by decide, by decide, by decide, by decide, by simp⟩

/-- Ten transactions, with a poll before every shift and without. -/
theorem witness_LoadReturnsRecord :
    ∀ ts ∈ [polledShifts, List.replicate 40 .transfer], ∃ (s : State) (rest : List Event),
      hostAtRest s = false ∧ cmdReady s = true ∧ s.lPhase = .idle ∧
      (∀ i < 10, flashResponds s (s.tOrd + i) = true) ∧ (List.replicate 10 ts).length = 10 ∧
      (∀ us ∈ List.replicate 10 ts, (∀ u ∈ us, u = .sequencer ∨ u = .transfer) ∧ us.count .transfer = 40) ∧
      s.agenda = .request (encode .loadIdentity) ::
        turns ((List.replicate 10 ts).map loaderTransaction).flatten ++ rest := by
  intro ts hts
  have hu : (∀ u ∈ ts, u = .sequencer ∨ u = .transfer) ∧ ts.count .transfer = 40 := by
    simp only [List.mem_cons, List.not_mem_nil, or_false] at hts
    rcases hts with rfl | rfl <;> decide
  exact ⟨{ State.reset with
      params := { Params.default with responds := List.replicate 10 true },
      agenda := .request (encode .loadIdentity) ::
        turns ((List.replicate 10 ts).map loaderTransaction).flatten },
    [], rfl, rfl, rfl, fun i hi => (by interval_cases i <;> rfl), List.length_replicate,
    fun us hus => List.eq_of_mem_replicate hus ▸ hu, (List.append_nil _).symm⟩

end Sys2Proof.Tests
end

/-! ### A step whose event is a request (R12, R13)

What beginning a step leaves readable, the two cases of `perform`, and with them the statement on decoded requests. -/

namespace Sys2Proof.Machine

open Sys2Proof

@[simp] theorem fetched_advance (s : State) (q : Request) : fetched s.advance q = fetched s q := rfl

@[simp] theorem hostAtRest_advance (s : State) : hostAtRest s.advance = hostAtRest s := rfl

/-- A request that decodes is answered by its operation's meaning. -/
theorem answer_of_fetched_ok {s : State} {q : Request} {i : Instr} (hi : fetched s q = .ok i) :
    answer q s = exec i s := by
  simp only [answer, hi]

/-- A request of a host with steps to take, or of another agent, is answered. -/
theorem perform_eq_answer {s : State} {q : Request} (h : hostAtRest s = false ∨ fromHost q = false) :
    perform q s = answer q s :=
  if_neg fun ⟨hr, hf⟩ => h.elim (by simp [hr]) (by simp [hf])

/-- A host at rest does not make its request (R229, R228, log 37). -/
theorem perform_eq_unmade {s : State} {q : Request} (hr : hostAtRest s = true) (hf : fromHost q = true) :
    perform q s = unmade s (answer q s) :=
  if_pos ⟨hr, hf⟩

/-- A step whose event is a request performs it, on the state with the event taken off. -/
theorem step_eq_perform {s : State} {q : Request} (h : nextEvent s = .request q) : step s = perform q s.advance := by
  simp only [step, h, runEvent]

/-- Settles O29: the step performs the request, and `perform` answers it or, for a host at rest, leaves it unmade. -/
theorem stepRunsDecoded : Obligations.StepRunsDecoded := by
  intro s u q i hq hi hu
  obtain rfl : u = s.advance := hu
  have ha : answer q s.advance = exec i s.advance := answer_of_fetched_ok ((fetched_advance s q).trans hi)
  rw [step_eq_perform hq, ← hostAtRest_advance s]
  constructor
  · intro h
    rw [perform_eq_answer h, ha]
  · intro hr hf
    rw [perform_eq_unmade hr hf, ha]
    constructor
    · intro t ht
      rw [ht, unmade]
    · intro r ht
      rw [ht, unmade]

end Sys2Proof.Machine

/-! ### The invariants at reset (R48, R270) -/

namespace Sys2Proof.Machine

open Sys2Proof

theorem controlInv_resetEvent (s : State) : ControlInv (resetEvent s) := by
  constructor <;> simp [resetEvent, State.reset]

theorem dataInv_resetEvent (s : State) : DataInv (resetEvent s) := by
  constructor <;> simp [resetEvent, State.reset]

theorem hostInv_resetEvent (s : State) : HostInv (resetEvent s) := by
  constructor <;> simp [resetEvent, State.reset, hasLoaded, hasPublished]

theorem pubInv_resetEvent (s : State) : PubInv (resetEvent s) := by
  constructor <;> simp [resetEvent, State.reset]

/-- Settles O38: `State.reset` is its own reset event. -/
theorem invariantsHoldAtReset : Obligations.InvariantsHoldAtReset :=
  ⟨controlInv_resetEvent .reset, dataInv_resetEvent .reset, hostInv_resetEvent .reset, pubInv_resetEvent .reset,
    Memory.wf_reset⟩

/-! ### The MAC accumulator after the load (R48 (e), R196) -/

/-- The number of `n` bytes has no bit above them. -/
theorem bigEndian_getLsbD_high (w : Nat) (f : Nat → Byte) (n j : Nat) (hj : 8 * n ≤ j) :
    (bigEndian w f n).getLsbD j = false := by
  induction n generalizing j with
  | zero => simp [bigEndian]
  | succ n ih =>
    have hshift : (bigEndian w f n).getLsbD (j - 8) = false := ih (j - 8) (by omega)
    have hbyte : (f n).getLsbD j = false := BitVec.getLsbD_of_ge _ _ (by omega)
    simp [bigEndian, hshift, hbyte]

/-- Settles O43: with the load done the accumulator is the number of six bytes, so bits 48 and up are zero. -/
theorem loadedMacHasZeroTop : Obligations.LoadedMacHasZeroTop := by
  intro s hc hd hdone
  have hl : s.lPhase ≠ .idle := by simp [hdone]
  obtain ⟨-, -, hten⟩ := hc.pointer hl
  have hidx : s.lIdx = 10 := hten.mpr hdone
  have hmac : s.macAcc = bigEndian 64 (fun i => recordByte s (i + 4)) 6 := by
    simpa [hidx] using hd.mac hl (by simp [hidx])
  apply BitVec.eq_of_getLsbD_eq
  intro j _
  rw [hmac, BitVec.getLsbD_extractLsb', bigEndian_getLsbD_high _ _ _ _ (by omega)]
  simp

/-! ### Frames: what the response phase and the Boot Sequencer's opaque steps leave unchanged -/

/-- The response phase touches the sequencer's latch, the loader, the host's state and the wires only (R176, R193,
R194). -/
theorem respStep_frame (s : State) :
    respStep s = { s with
      tData := respByte s.miso, tPhase := .idle, lPhase := (respStep s).lPhase, lIdx := (respStep s).lIdx,
      lPtr := (respStep s).lPtr, ipAcc := (respStep s).ipAcc, macAcc := (respStep s).macAcc,
      bState := (respStep s).bState, wires := (respStep s).wires } := by
  by_cases hl : s.lPhase = .wait
  · by_cases hi : s.lIdx = 9
    · rw [respStep_last s hl hi]
    · rw [respStep_more s hl hi]
  · rw [respStep_host s hl]

theorem bootInterrupts_frame (s : State) :
    bootInterrupts s = { s with bState := .irq, wires := (bootInterrupts s).wires } := by
  unfold bootInterrupts
  split <;> rfl

theorem bootConsole_frame (s : State) :
    bootConsole s = { s with bState := .console, wires := (bootConsole s).wires } := by
  unfold bootConsole
  split <;> rfl

theorem bootMemory_frame (s : State) :
    bootMemory s = { s with
      bState := (bootMemory s).bState, memCalls := s.memCalls + 1, memHung := (bootMemory s).memHung,
      wires := (bootMemory s).wires } := by
  unfold bootMemory
  dsimp only
  split <;> rfl

/-! ### What a move does to the transfer, the loaded identity and the select enable -/

/-- A move resets, starts a transfer, completes one, or leaves `BUSY`, `DONE` and `T_ORD` as they are. -/
theorem Move.transfer_cases {e : Event} {s t : State} (m : Move e s t) :
    (e = .turn .reset ∧ t.done = false) ∨
    (s.busy = false ∧ t.busy = true ∧ t.done = false ∧ t.tOrd = s.tOrd + 1) ∨
    (completeEnabled s = true ∧ t.busy = false ∧ t.done = true ∧ t.tOrd = s.tOrd) ∨
    (t.busy = s.busy ∧ t.done = s.done ∧ t.tOrd = s.tOrd) := by
  cases m
  case reset => exact .inl ⟨rfl, rfl⟩
  case hostStart _ _ _ hb _ => exact .inr (.inl ⟨hb, rfl, rfl, rfl⟩)
  case txnGo hb _ => exact .inr (.inl ⟨hb, rfl, rfl, rfl⟩)
  case complete hc => exact .inr (.inr (.inl ⟨hc, rfl, rfl, rfl⟩))
  all_goals refine .inr (.inr (.inr ?_))
  case txnResp => rw [respStep_frame]; exact ⟨rfl, rfl, rfl⟩
  case bootInterrupts => rw [bootInterrupts_frame]; exact ⟨rfl, rfl, rfl⟩
  case bootConsole => rw [bootConsole_frame]; exact ⟨rfl, rfl, rfl⟩
  case bootMemory => rw [bootMemory_frame]; exact ⟨rfl, rfl, rfl⟩
  all_goals exact ⟨rfl, rfl, rfl⟩

/-- After the load only a reset touches the loader's phase and the accumulators: a load is accepted in `L_IDLE`, and a
byte is consumed in `L_WAIT`, only (R191, R193). -/
theorem Move.identity_stays {e : Event} {s t : State} (m : Move e s t) (hdone : s.lPhase = .done)
    (he : e ≠ .turn .reset) : t.lPhase = .done ∧ t.ipAcc = s.ipAcc ∧ t.macAcc = s.macAcc := by
  cases m
  case reset => exact absurd rfl he
  case loadIdentity hl | bootLoad hl => simp [hl] at hdone
  case request hl _ => simp [hl] at hdone
  case txnResp => rw [respStep_host s (by simp [hdone])]; exact ⟨hdone, rfl, rfl⟩
  case bootInterrupts => rw [bootInterrupts_frame]; exact ⟨hdone, rfl, rfl⟩
  case bootConsole => rw [bootConsole_frame]; exact ⟨hdone, rfl, rfl⟩
  case bootMemory => rw [bootMemory_frame]; exact ⟨hdone, rfl, rfl⟩
  all_goals exact ⟨hdone, rfl, rfl⟩

/-- The only write of an agent to the select enable sets it (R172). -/
theorem Move.turn_cs {u : Turn} {s t : State} (m : Move (.turn u) s t) (hc : s.cs = true) (hu : u ≠ .reset) :
    t.cs = true := by
  cases m
  case reset => exact absurd rfl hu
  case txnSel => rfl
  case txnResp => rw [respStep_frame]; exact hc
  case bootInterrupts => rw [bootInterrupts_frame]; exact hc
  case bootConsole => rw [bootConsole_frame]; exact hc
  case bootMemory => rw [bootMemory_frame]; exact hc
  all_goals exact hc

/-- Settles O46: none of the moves a step can make but a reset touches a loaded identity. -/
theorem loadedIdentityStays : Obligations.LoadedIdentityStays :=
  fun s t hdone he h => (step_move s t h).identity_stays hdone he

/-- Settles O48: of the four kinds of move only a completion sets `DONE`, and only a start or a reset clears it. -/
theorem doneChangesOnlyAsStated : Obligations.DoneChangesOnlyAsStated := by
  intro s t h
  obtain ⟨hreset, hd'⟩ | ⟨hb, hb', hd', hord⟩ | ⟨hc, hb', hd', _⟩ | ⟨_, hd', _⟩ := (step_move s t h).transfer_cases
  · exact ⟨fun _ hd => by simp [hd'] at hd, fun _ _ => .inl hreset⟩
  · exact ⟨fun _ hd => by simp [hd'] at hd, fun _ _ => .inr ⟨hb, hb', hord⟩⟩
  · exact ⟨fun _ _ => ⟨hc, hb'⟩, fun _ hd => by simp [hd'] at hd⟩
  · exact ⟨fun hs hd => by simp [hd', hs] at hd, fun hs hd => by simp [hd', hs] at hd⟩

/-- Settles O49: an agent's turn is a move, and no move of an agent but a reset clears `CS`. -/
theorem selectEnableIsSticky : Obligations.SelectEnableIsSticky :=
  fun s t u hc hu h => (takeTurn_move u s t h).turn_cs hc hu

/-- Settles O50: apart from a reset a move starts a transfer and raises `T_ORD`, or completes one, or keeps both. -/
theorem ordinalCountsStarts : Obligations.OrdinalCountsStarts := by
  intro s t he h
  obtain ⟨hreset, _⟩ | ⟨hb, hb', _, hord⟩ | ⟨_, hb', _, hord⟩ | ⟨hb', _, hord⟩ := (step_move s t h).transfer_cases
  · exact absurd hreset he
  · exact .inl ⟨hb, hb', hord⟩
  · exact .inr ⟨fun hb => by simp [hb'] at hb, hord⟩
  · exact .inr ⟨fun hb => hb'.symm.trans hb, hord⟩

end Sys2Proof.Machine

/-! ### The control invariant, one lemma per move that touches what it speaks of (R48) -/

namespace Sys2Proof.Machine

open Sys2Proof

/-- A length of at most 40 fits in `BITCNT` (R27, R122). -/
theorem bitcnt_of_length {len : Byte} (hl : len.toNat ≤ 40) : (len.setWidth 6).toNat = len.toNat := by
  rw [BitVec.toNat_setWidth]
  omega

/-- A loader that is not running neither asks nor waits (R131). -/
theorem not_req_not_wait_of_quiet {l : LPhase} (hl : l = .idle ∨ l = .done) : l ≠ .req ∧ l ≠ .wait := by
  rcases hl with rfl | rfl <;> simp

/-- A poll that does not see `DONE` is a status read and no more (R175). -/
theorem pollStep_more (s : State) (hp : s.tPhase = .poll) (hd : s.done = false) :
    pollStep s = regRead .spiStatus s := by
  simp [pollStep, regRead, statusValue, State.shows, hp, hd]

/-- A poll that sees `DONE` moves on (R175). -/
theorem pollStep_last (s : State) (hd : s.done = true) :
    pollStep s = { regRead .spiStatus s with tPhase := .resp } := by
  simp [pollStep, statusValue, hd]

section ControlInvariant

variable {s : State}

/-- A poll that sees `DONE` sees the transfer over (R175). -/
theorem ControlInv.idle_of_done (h : ControlInv s) (hd : s.done = true) : s.busy = false := by
  cases hb : s.busy with
  | false => rfl
  | true => simp [h.busyNotDone hb] at hd

/-- Inside a transaction the loader does not ask for the next one (R192). -/
theorem ControlInv.not_requesting (h : ControlInv s) (hp : s.tPhase ≠ .idle) : s.lPhase ≠ .req :=
  fun hr => hp (h.requesting hr).1

/-- The sequencer accepts an address for a loader that waits for it or is not running (R171, R192). -/
theorem ControlInv.enterSel (h : ControlInv s) {a : FlashAddr} {l : LPhase} (hb : s.busy = false)
    (hidle : l = .idle ↔ s.lPhase = .idle) (hdone : l = .done ↔ s.lPhase = .done) (hreq : l ≠ .req)
    (hwait : l = .wait → a = s.lPtr) : ControlInv { acceptRead a s with lPhase := l } :=
  { h with
    pointer := fun hl => by simpa [hdone] using h.pointer (hidle.not.mp hl)
    earlyAtRest := fun _ => hb
    selected := by simp
    framed := by simp
    length := by simp
    polling := by simp
    complete := by simp
    requesting := fun hr => absurd hr hreq
    waiting := fun hw => ⟨by simp, hwait hw⟩ }

/-- The loader's acceptance (R191): a ready block, the pointer at the base. -/
theorem ControlInv.acceptLoad (h : ControlInv s) (hr : cmdReady s = true) : ControlInv (acceptLoad s) := by
  obtain ⟨hp, -, hb⟩ := (cmdReady_iff s).mp hr
  exact { h with
    pointer := by simp
    requesting := fun _ => ⟨hp, hb⟩
    waiting := by simp }

/-- A host's register write, with no transfer and no command running: any enable, word and length (R120 to R122). -/
theorem ControlInv.hostWrite (h : ControlInv s) {c : Bool} {m : Frame} {n : Byte} {w : Wires}
    (he : hostEntitled s = true) (hb : s.busy = false) :
    ControlInv { s with cs := c, mosi := m, ctrlLength := n, wires := w } := by
  obtain ⟨hp, -⟩ := (hostEntitled_iff s).mp he
  exact { h with
    busyBits := by simp [hb]
    busySelected := by simp [hb]
    busyTxsr := by simp [hb]
    selected := by simp [hp]
    framed := by simp [hp]
    length := by simp [hp] }

/-- The start of a transfer (R122), by the host between commands or by the sequencer, which moves on to `T_POLL` with
the read frame in `MOSI` (R174). -/
theorem ControlInv.start (h : ControlInv s) {len : Byte} {p : TPhase} {w : Wires} (hl : len.toNat ≤ 40)
    (hc : s.cs = true) (hreq : s.lPhase ≠ .req)
    (hp : (p = .idle ∧ s.lPhase ≠ .wait) ∨ (p = .poll ∧ s.mosi = outWord s.tAddr ∧ len = 40)) :
    ControlInv { startTransfer len s with tPhase := p, wires := w } :=
  { h with
    busyNotDone := by simp
    busyBits := by simp [bitcnt_of_length hl, hl]
    restBits := by simp
    busySelected := by simp [hc]
    busyTxsr := by simp [bitcnt_of_length hl]
    earlyAtRest := by rcases hp with ⟨rfl, _⟩ | ⟨rfl, _⟩ <;> simp
    selected := by simp [hc]
    framed := fun hq => by
      obtain ⟨rfl, -⟩ | ⟨-, hm, -⟩ := hp
      · simp at hq
      · exact hm
    length := fun hq => by
      obtain ⟨rfl, -⟩ | ⟨-, -, hlen⟩ := hp
      · simp at hq
      · exact hlen
    polling := by simp
    complete := by rcases hp with ⟨rfl, _⟩ | ⟨rfl, _⟩ <;> simp
    requesting := fun hr => absurd hr hreq
    waiting := fun hw => by
      obtain ⟨-, hn⟩ | ⟨rfl, -⟩ := hp
      · exact absurd hw hn
      · exact ⟨by simp, (h.waiting hw).2⟩ }

/-- One bit period: the count goes down and the rest of the word moves up (R143). -/
theorem ControlInv.shiftStep (h : ControlInv s) (he : shiftEnabled s = true) : ControlInv (shiftStep s) := by
  obtain ⟨hb, hn⟩ := (shiftEnabled_iff s).mp he
  have hcnt : (s.bitcnt - 1).toNat + 1 = s.bitcnt.toNat := by bv_omega
  obtain ⟨hle, hlen⟩ := h.busyBits hb
  exact { h with
    busyBits := fun _ => ⟨by rw [shiftStep_bitcnt, shiftStep_ctrlLength]; omega, hlen⟩
    restBits := by simp [hb]
    busyTxsr := fun _ => by
      rw [shiftStep_txsr, shiftStep_mosi, shiftStep_bitcnt, h.busyTxsr hb, ← BitVec.shiftLeft_add]
      congr 1
      omega }

/-- The end of a transfer (R145). -/
theorem ControlInv.completeStep (h : ControlInv s) (he : completeEnabled s = true) : ControlInv (completeStep s) := by
  obtain ⟨hb, hn, -⟩ := (completeEnabled_iff s).mp he
  exact { h with
    busyNotDone := by simp
    busyBits := by simp
    restBits := fun _ => hn
    busySelected := by simp
    busyTxsr := by simp
    earlyAtRest := by simp
    polling := by simp
    complete := by simp
    requesting := fun hr => ⟨(h.requesting hr).1, rfl⟩ }

/-- Phase `T_SEL` sets the select enable (R172). -/
theorem ControlInv.txnSel (h : ControlInv s) (hp : s.tPhase = .sel) (hb : s.busy = false) {w : Wires} :
    ControlInv { s with cs := true, tPhase := .cmd, wires := w } :=
  { h with
    busySelected := by simp
    earlyAtRest := fun _ => hb
    selected := by simp
    framed := by simp
    length := by simp
    polling := by simp
    complete := by simp
    requesting := fun hr => absurd hr (h.not_requesting (by simp [hp]))
    waiting := fun hw => ⟨by simp, (h.waiting hw).2⟩ }

/-- Phase `T_CMD` writes the read frame of the latched address (R173). -/
theorem ControlInv.txnCmd (h : ControlInv s) (hp : s.tPhase = .cmd) (hb : s.busy = false) {w : Wires} :
    ControlInv { s with mosi := outWord s.tAddr, tPhase := .go, wires := w } :=
  { h with
    busyTxsr := by simp [hb]
    earlyAtRest := fun _ => hb
    selected := fun _ => h.selected (.inl hp)
    framed := by simp
    length := by simp
    polling := by simp
    complete := by simp
    requesting := fun hr => absurd hr (h.not_requesting (by simp [hp]))
    waiting := fun hw => ⟨by simp, (h.waiting hw).2⟩ }

/-- A poll that sees `DONE` enters `T_RESP` (R175). -/
theorem ControlInv.enterResp (h : ControlInv s) (hp : s.tPhase = .poll) (hd : s.done = true) {w : Wires} :
    ControlInv { s with tPhase := .resp, wires := w } :=
  { h with
    earlyAtRest := by simp
    selected := fun _ => h.selected (by simp [hp])
    framed := fun _ => h.framed (by simp [hp])
    length := fun _ => h.length (by simp [hp])
    polling := by simp
    complete := fun _ => ⟨h.idle_of_done hd, hd⟩
    requesting := fun hr => absurd hr (h.not_requesting (by simp [hp]))
    waiting := fun hw => ⟨by simp, (h.waiting hw).2⟩ }

/-- One poll (R175). -/
theorem ControlInv.pollStep (h : ControlInv s) (hp : s.tPhase = .poll) : ControlInv (pollStep s) := by
  cases hd : s.done with
  | false =>
    rw [pollStep_more s hp hd]
    exact { h with }
  | true =>
    rw [pollStep_last s hd]
    exact h.enterResp hp hd

/-- The sequencer goes idle after `T_RESP`, with the loader past its wait and its pointer in step (R176, R48 (c)). -/
theorem ControlInv.leaveResp (h : ControlInv s) (hp : s.tPhase = .resp) {b : Byte} {l : LPhase} {i : BitVec 4}
    {p : FlashAddr} {ip : BitVec 32} {mac : BitVec 64} {bs : BState} {w : Wires} (hwait : l ≠ .wait)
    (hptr : l ≠ .idle → p = s.params.cfgBase + i.setWidth 24 ∧ i.toNat ≤ 10 ∧ (i = 10 ↔ l = .done)) :
    ControlInv { s with
      tData := b, tPhase := .idle, lPhase := l, lIdx := i, lPtr := p, ipAcc := ip, macAcc := mac, bState := bs,
      wires := w } :=
  { h with
    pointer := hptr
    earlyAtRest := by simp
    selected := by simp
    framed := by simp
    length := by simp
    polling := by simp
    complete := by simp
    requesting := fun _ => ⟨rfl, (h.complete hp).1⟩
    waiting := fun hw => absurd hw hwait }

/-- While the loader waits its index counts the bytes before the one in transfer (R48 (c)). -/
theorem ControlInv.index_lt_ten (h : ControlInv s) (hl : s.lPhase = .wait) : s.lIdx.toNat < 10 := by
  obtain ⟨-, hle, hten⟩ := h.pointer (by simp [hl])
  have hne : s.lIdx ≠ 10 := mt hten.mp (by simp [hl])
  bv_omega

/-- The loader's pointer moves with its index (R193). -/
theorem ControlInv.pointer_next (h : ControlInv s) (hl : s.lPhase = .wait) :
    s.lPtr + 1 = s.params.cfgBase + (s.lIdx + 1).setWidth 24 := by
  have hlt := h.index_lt_ten hl
  rw [(h.pointer (by simp [hl])).1]
  bv_omega

/-- The response phase, to the host, to the loader, or to the loader as its last byte (R176, R193, R194). -/
theorem ControlInv.respStep (h : ControlInv s) (hp : s.tPhase = .resp) : ControlInv (respStep s) := by
  by_cases hl : s.lPhase = .wait
  · have hlt := h.index_lt_ten hl
    have hptr := h.pointer_next hl
    by_cases hi : s.lIdx = 9
    · rw [respStep_last s hl hi]
      exact h.leaveResp hp (by simp) fun _ => ⟨by simpa [hi] using hptr, by simp, by simp⟩
    · rw [respStep_more s hl hi]
      exact h.leaveResp hp (by simp) fun _ => ⟨hptr, by bv_omega, iff_of_false (by bv_omega) (by simp)⟩
  · rw [respStep_host s hl]
    exact h.leaveResp hp hl h.pointer

end ControlInvariant

/-- Every move keeps the control invariant. -/
theorem ControlInv.move {e : Event} {s t : State} (h : ControlInv s) (m : Move e s t) : ControlInv t := by
  cases m
  case readByte hr =>
    obtain ⟨-, hl, hb⟩ := (cmdReady_iff s).mp hr
    obtain ⟨hreq, hwait⟩ := not_req_not_wait_of_quiet hl
    exact h.enterSel hb .rfl .rfl hreq fun hw => absurd hw hwait
  case request hl _ =>
    exact h.enterSel (h.requesting hl).2 (by simp [hl]) (by simp [hl]) (by simp) fun _ => rfl
  case loadIdentity hr _ | bootLoad hr _ => exact h.acceptLoad hr
  case hostCs | hostMosi | hostLength => exact h.hostWrite ‹_› ‹_›
  case hostStart hl _ he _ hc =>
    obtain ⟨hp, hq⟩ := (hostEntitled_iff s).mp he
    obtain ⟨hreq, hwait⟩ := not_req_not_wait_of_quiet hq
    exact h.start hl hc hreq (.inl ⟨hp, hwait⟩)
  case txnSel hp hb => exact h.txnSel hp hb
  case txnCmd hp hb => exact h.txnCmd hp hb
  case txnGo hp _ hc =>
    exact h.start (by simp) hc (h.not_requesting (by simp [hp])) (.inr ⟨rfl, h.framed (.inl hp), rfl⟩)
  case txnPoll hp => exact h.pollStep hp
  case txnResp hp => exact h.respStep hp
  case shift hs => exact h.shiftStep hs
  case complete hc => exact h.completeStep hc
  case reset => exact controlInv_resetEvent s
  case bootInterrupts => rw [bootInterrupts_frame]; exact { h with }
  case bootConsole => rw [bootConsole_frame]; exact { h with }
  case bootMemory => rw [bootMemory_frame]; exact { h with }
  case ignored | rest | hostSees | device | hostMac | hostIp | bootMac | bootIp | bootIdle => exact { h with }

/-- The invariant does not see the start of a step, which takes the event and quiets the wires. -/
theorem ControlInv.advance {s : State} (h : ControlInv s) : ControlInv s.advance := { h with }

/-- Settles O39, by the cases of the moves a step can make. -/
theorem everyStepKeepsControl : Obligations.EveryStepKeepsControl :=
  fun s t h hs => h.advance.move (step_move s t hs)

end Sys2Proof.Machine

/-! ### Bus addresses (R63, R74) -/

namespace Sys2Proof

/-- The list names every register (R63). -/
theorem Reg.mem_all (r : Reg) : r ∈ Reg.all := by
  cases r <;> decide

/-- With distinct addresses a register's address selects that register and no other. -/
theorem AddrMap.regAt_addr {m : AddrMap} (hm : ∀ r r', m.addr r = m.addr r' → r = r') (r : Reg) :
    m.regAt (m.addr r) = some r := by
  cases h : m.regAt (m.addr r) with
  | none =>
    have hne := List.find?_eq_none.mp h r r.mem_all
    simp at hne
  | some r' =>
    have heq := List.find?_some h
    rw [hm r' r (beq_iff_eq.mp heq)]

/-- An address of no register selects none. -/
theorem AddrMap.regAt_eq_none {m : AddrMap} {a : Nat} (ha : ∀ r, m.addr r ≠ a) : m.regAt a = none :=
  List.find?_eq_none.mpr fun r _ => by simpa using ha r

theorem resolve_busWrite_of_some {m : AddrMap} {a : Nat} {r : Reg} (h : m.regAt a = some r) (w : BusWord) :
    resolve m ⟨.busWrite a, w⟩ = ⟨.write r, w⟩ := by
  simp only [resolve, h]

theorem resolve_busRead_of_some {m : AddrMap} {a : Nat} {r : Reg} (h : m.regAt a = some r) (w : BusWord) :
    resolve m ⟨.busRead a, w⟩ = ⟨.read r, w⟩ := by
  simp only [resolve, h]

theorem resolve_busWrite_of_none {m : AddrMap} {a : Nat} (h : m.regAt a = none) (w : BusWord) :
    resolve m ⟨.busWrite a, w⟩ = ⟨.busWrite a, w⟩ := by
  simp only [resolve, h]

theorem resolve_busRead_of_none {m : AddrMap} {a : Nat} (h : m.regAt a = none) (w : BusWord) :
    resolve m ⟨.busRead a, w⟩ = ⟨.busRead a, w⟩ := by
  simp only [resolve, h]

/-- Settles O34: an access at a register's address resolves to that register's space, and one at any other address stays
a bare bus access, which decodes as `noRegister`. -/
theorem busAddressSelectsRegister : Obligations.BusAddressSelectsRegister := by
  intro m hm w
  refine ⟨fun r => ?_, fun r => ?_, fun a ha => ?_⟩
  · rw [resolve_busWrite_of_some (AddrMap.regAt_addr hm r)]
  · rw [resolve_busRead_of_some (AddrMap.regAt_addr hm r)]
  · have hnone := AddrMap.regAt_eq_none ha
    rw [resolve_busWrite_of_none hnone, resolve_busRead_of_none hnone]
    exact ⟨rfl, rfl⟩

end Sys2Proof

/-! ### No move writes the flash or a parameter (R62) -/

namespace Sys2Proof.Machine

open Sys2Proof

/-- No move touches the cells of the flash or the parameters; a reset keeps both (R62, log 17). -/
theorem Move.flash_params {e : Event} {s t : State} (m : Move e s t) : t.flash = s.flash ∧ t.params = s.params := by
  cases m
  case txnResp => rw [respStep_frame]; exact ⟨rfl, rfl⟩
  case bootInterrupts => rw [bootInterrupts_frame]; exact ⟨rfl, rfl⟩
  case bootConsole => rw [bootConsole_frame]; exact ⟨rfl, rfl⟩
  case bootMemory => rw [bootMemory_frame]; exact ⟨rfl, rfl⟩
  all_goals exact ⟨rfl, rfl⟩

/-- Settles O47: a step is a move from the state with the event taken off, and neither writes a cell or a parameter. -/
theorem flashIsNeverWritten : Obligations.FlashIsNeverWritten := by
  intro s t h
  obtain ⟨hflash, hparams⟩ := (step_move s t h).flash_params
  rw [State.advance_flash] at hflash
  rw [State.advance_params] at hparams
  exact ⟨congrFun (flashAt_congr hflash), hparams, fun hwf => hflash ▸ hwf⟩

end Sys2Proof.Machine

/-! ### The decoder, format by format (R91, R92, R96) -/

namespace Sys2Proof

open Machine

/-- A frame word of 40 bits is in range (R91). -/
theorem frame_range (w : BusWord) : w >>> 40 = 0 ↔ w.toNat < 2 ^ 40 := by
  rw [← BitVec.toNat_inj, BitVec.toNat_ushiftRight, Nat.shiftRight_eq_div_pow, BitVec.ofNat_eq_ofNat,
    BitVec.toNat_ofNat, Nat.zero_mod, Nat.div_eq_zero_iff_lt (by decide)]

theorem decodeCommand_tooWide {w : BusWord} (hw : 2 ^ 25 ≤ w.toNat) :
    decodeCommand w = .error .addressTooWide :=
  if_pos fun h => absurd ((command_range w).mp h) (by omega)

/-- A word of the command port is one of the two block commands, told apart by `cmd_op`, bit 24 (R96). -/
theorem decodeCommand_of_lt {w : BusWord} (hw : w.toNat < 2 ^ 25) :
    decodeCommand w = if w.getLsbD 24 then .ok .loadIdentity else .ok (.readByte (w.setWidth 24)) :=
  if_neg (not_not.mpr ((command_range w).mpr hw))

theorem decodeFrame_tooLong {w : BusWord} (hw : 2 ^ 40 ≤ w.toNat) : decodeFrame w = .error .frameTooLong :=
  if_pos fun h => absurd ((frame_range w).mp h) (by omega)

/-- A frame is a flash read of its address field if its opcode field is 0x03, and foreign otherwise (R91, R104). -/
theorem decodeFrame_of_lt {w : BusWord} (hw : w.toNat < 2 ^ 40) :
    decodeFrame w =
      if w.extractLsb' 32 8 = Config.opcRead then .ok (.flashRead (w.extractLsb' 8 24)) else .error .foreignFrame :=
  if_neg (not_not.mpr ((frame_range w).mpr hw))

/-- R105 (a). -/
theorem ctrlKind_of_reservedCount {v : BusWord} (hc : 2 ≤ (ctrlCnt v).toNat) : ctrlKind v = .reservedCount := by
  have h0 : ctrlCnt v ≠ 0 := fun h => by simp [h] at hc
  have h1 : ctrlCnt v ≠ Config.xferCnt := fun h => by simp [h, Config.xferCnt] at hc
  rw [ctrlKind, if_neg h0, if_neg h1]

/-- R105 (b). -/
theorem ctrlKind_of_reservedLength {v : BusWord} (hc : ctrlCnt v = 1)
    (hl : ctrlLen v = 0 ∨ 40 < (ctrlLen v).toNat) : ctrlKind v = .reservedLength := by
  have h0 : ctrlCnt v ≠ 0 := by simp [hc]
  rw [ctrlKind, if_neg h0, if_pos (show ctrlCnt v = Config.xferCnt from hc), if_pos hl]

theorem decodeControl_of_reservedCount {v : BusWord} (hc : 2 ≤ (ctrlCnt v).toNat) :
    decodeControl v = .error .reservedCount := by
  simp only [decodeControl, ctrlKind_of_reservedCount hc]

theorem decodeControl_of_reservedLength {v : BusWord} (hc : ctrlCnt v = 1)
    (hl : ctrlLen v = 0 ∨ 40 < (ctrlLen v).toNat) : decodeControl v = .error .reservedLength := by
  simp only [decodeControl, ctrlKind_of_reservedLength hc hl]

theorem wellFormed_ctrlWr (v : BusWord) :
    WellFormed (.ctrlWr v) = true ↔ ctrlKind v = .store ∨ ctrlKind v = .start := by
  simp [WellFormed]

/-! ### Decode and encode (R104) -/

/-- The word of a `READ_BYTE` has 25 bits, `cmd_op` zero, and the address below (R96). -/
theorem decodeCommand_readByte (a : FlashAddr) : decodeCommand (a.setWidth 64) = .ok (.readByte a) := by
  have hlt : (a.setWidth 64 : BusWord).toNat < 2 ^ 25 := by
    rw [BitVec.toNat_setWidth]
    omega
  have hop : (a.setWidth 64 : BusWord).getLsbD 24 = false := by simp
  have haddr : (a.setWidth 64 : BusWord).setWidth 24 = a := by simp
  rw [decodeCommand_of_lt hlt, hop, haddr]
  rfl

/-- The outgoing word of an address is a read frame of that address (R91). -/
theorem decodeFrame_outWord (a : FlashAddr) : decodeFrame ((outWord a).setWidth 64) = .ok (.flashRead a) := by
  have hlt : ((outWord a).setWidth 64 : BusWord).toNat < 2 ^ 40 := by
    rw [BitVec.toNat_setWidth]
    omega
  rw [decodeFrame_of_lt hlt, BitVec.extractLsb'_setWidth_of_le (by decide), outWord_opcode, if_pos rfl,
    BitVec.extractLsb'_setWidth_of_le (by decide), outWord_address]

/-- Settles O32: the command, the frame and the control format have their lemmas; elsewhere the space names the
operation and the word is its operand. -/
theorem decodeEncodeAgree : Obligations.DecodeEncodeAgree := by
  intro i hi
  cases i
  case readByte a => exact decodeCommand_readByte a
  case flashRead a => exact decodeFrame_outWord a
  case ctrlWr v => exact (decodeControl_ok v _).mpr ⟨rfl, (wellFormed_ctrlWr v).mp hi⟩
  all_goals rfl

theorem wellFormed_of_decodeCommand {w : BusWord} {i : Instr} (h : decodeCommand w = .ok i) : WellFormed i = true := by
  unfold decodeCommand at h
  split at h
  · cases h
  · split at h <;> cases h <;> rfl

theorem wellFormed_of_decodeWrite {w : BusWord} {r : Reg} {i : Instr} (h : decodeWrite w r = .ok i) :
    WellFormed i = true := by
  cases r
  case spiCtrl =>
    obtain ⟨rfl, hk⟩ := (decodeControl_ok w i).mp h
    exact (wellFormed_ctrlWr w).mpr hk
  all_goals cases h; rfl

theorem wellFormed_of_decodeRead {r : Reg} {i : Instr} (h : decodeRead r = .ok i) : WellFormed i = true := by
  cases r <;> cases h <;> rfl

/-- What the decoder answers is well-formed (R105). -/
theorem wellFormed_of_decode {q : Request} {i : Instr} (h : decode q = .ok i) : WellFormed i = true := by
  obtain ⟨sp, w⟩ := q
  cases sp
  case command => exact wellFormed_of_decodeCommand h
  case write r => exact wellFormed_of_decodeWrite h
  case read r => exact wellFormed_of_decodeRead h
  case wire =>
    obtain ⟨a, rfl⟩ := decodeFrame_ok w i h
    rfl
  case shift | complete => cases h; rfl
  case part | busWrite | busRead => cases h

/-- Settles O33: the decoder is a left inverse of the encoder, so the encoder is injective. -/
theorem decodedAreWellFormed : Obligations.DecodedAreWellFormed := by
  refine ⟨fun q i => wellFormed_of_decode, fun i j hi hj hij => ?_⟩
  have hdec : Except.ok i = (Except.ok j : Except DecodeError Instr) := by
    rw [← decodeEncodeAgree i hi, hij, decodeEncodeAgree j hj]
  exact Except.ok.inj hdec

/-- Settles O31: six closed words, evaluated by the decoder. -/
theorem specWordsDecode : Obligations.SpecWordsDecode := by
  unfold Obligations.SpecWordsDecode
  decide

/-! ### The outgoing word (R100) -/

/-- The closed form of R100: the opcode over the unscaled address. -/
theorem outWord_eq_or (a : FlashAddr) : outWord a = (0x03 : Frame) <<< 32 ||| a.setWidth 40 <<< 8 := by
  have hop : (0x03 : Frame) = (0x03 : Byte).setWidth 40 := rfl
  apply BitVec.eq_of_getLsbD_eq
  intro j hj
  rw [outWord_bit, hop, BitVec.getLsbD_or, BitVec.getLsbD_shiftLeft, BitVec.getLsbD_shiftLeft,
    BitVec.getLsbD_setWidth, BitVec.getLsbD_setWidth]
  by_cases hpad : j < 8
  · simp [hpad, show j < 32 by omega]
  · by_cases haddr : j < 32
    · simp [hpad, haddr, hj, show j - 8 < 40 by omega]
    · have hge : a.getLsbD (j - 8) = false := BitVec.getLsbD_of_ge _ _ (by omega)
      simp [hpad, haddr, hj, hge, show j - 32 < 40 by omega]

/-- Under the mask of `SPI40` the outgoing word is the opcode and nothing else (R91): the mask drops the address. -/
theorem outWord_and_mask (a : FlashAddr) : outWord a &&& 0xFF000000FF = 0x0300000000 := by
  have hmask : ∀ j < 40, (0xFF000000FF : Frame).getLsbD j = decide (j < 8 ∨ 32 ≤ j) := by decide
  have hop : ∀ j < 40,
      (0x0300000000 : Frame).getLsbD j = if j < 32 then false else (0x03 : Byte).getLsbD (j - 32) := by decide
  apply BitVec.eq_of_getLsbD_eq
  intro j hj
  rw [BitVec.getLsbD_and, outWord_bit, hmask j hj, hop j hj]
  by_cases hpad : j < 8
  · simp [hpad, show j < 32 by omega]
  · by_cases haddr : j < 32
    · simp [hpad, haddr]
    · simp [hpad, haddr, show 32 ≤ j by omega]

/-- Settles O35: the closed form, the mask and the address field of the outgoing word. -/
theorem outWordIsReadFrame : Obligations.OutWordIsReadFrame :=
  fun a => ⟨outWord_eq_or a, outWord_and_mask a, outWord_address a⟩

end Sys2Proof

/-! ### Requests the decoder rejects (R43, R63, R70, R101, R105) -/

namespace Sys2Proof.Machine

open Sys2Proof

theorem answer_of_fetched_error {s : State} {q : Request} {e : DecodeError} (he : fetched s q = .error e) :
    answer q s = rejected e q s := by
  simp only [answer, he]

/-- A rejection that stands for a refusal refuses the step, in every state of the host (R256). -/
theorem step_refused_of_fetched_error {s : State} {q : Request} {e : DecodeError} {r : Refusal}
    (hq : nextEvent s = .request q) (he : fetched s q = .error e) (hr : rejected e q s.advance = .refused r) :
    step s = .refused r := by
  rw [step_eq_perform hq, perform_refused, answer_of_fetched_error ((fetched_advance s q).trans he), hr]

/-- Settles O30: each clause is a rejection of the decoder that stands for a refusal, and a refusal holds in every host
state. -/
theorem stepRefusesRejected : Obligations.StepRefusesRejected := by
  intro s w
  refine ⟨fun hq hw => ?_, fun hq hc => ?_, fun hq hc hl => ?_, fun r hr hq => ?_, fun r hq => ?_,
    fun a ha hq => ?_, fun hq hw => ?_⟩
  · exact step_refused_of_fetched_error hq (decodeCommand_tooWide hw) rfl
  · exact step_refused_of_fetched_error hq (decodeControl_of_reservedCount hc) rfl
  · exact step_refused_of_fetched_error hq (decodeControl_of_reservedLength hc hl) rfl
  · have he : fetched s ⟨.read r, w⟩ = .error .writeOnlyRead := by
      obtain rfl | rfl : r = .idMac ∨ r = .idIp := by simpa using hr
      · rfl
      · rfl
    exact step_refused_of_fetched_error hq he rfl
  · exact step_refused_of_fetched_error hq (e := .partialAccess) rfl rfl
  · have hnone := AddrMap.regAt_eq_none ha
    obtain hq | hq := hq
    · exact step_refused_of_fetched_error hq (congrArg decode (resolve_busWrite_of_none hnone w)) rfl
    · exact step_refused_of_fetched_error hq (congrArg decode (resolve_busRead_of_none hnone w)) rfl
  · exact step_refused_of_fetched_error hq (decodeFrame_tooLong hw) rfl

/-! ### A whole frame of another opcode (R105, R150) -/

/-- After an opcode other than 0x03 the device drives nothing (R105 (e), U8). -/
theorem devOut_of_foreign (flash : FlashAddr → Byte) {m : Frame} (hm : m.extractLsb' 32 8 ≠ Config.opcRead) (t : Nat) :
    devOut flash m 40 t = none :=
  if_neg fun ⟨_, _, h⟩ => hm (BitVec.setWidth_ushiftRight_eq_extractLsb .. ▸ h)

/-- Settles O59: the decoder rejects the frame, and the device's answer to it drives no bit. -/
theorem foreignFrameAllDraws : Obligations.ForeignFrameAllDraws := by
  intro s w hq hw hop
  have hfield : (wordOf w).extractLsb' 32 8 ≠ Config.opcRead := by
    rwa [wordOf, BitVec.extractLsb'_setWidth_of_le (by decide)]
  have hfetch : fetched s.advance ⟨.wire, w⟩ = .error .foreignFrame := (decodeFrame_of_lt hw).trans (if_neg hop)
  have hstep : step s = .next (deviceFrame (wordOf w) s.advance) := by
    rw [step_eq_perform hq, perform_eq_answer (.inr rfl), answer_of_fetched_error hfetch]
    rfl
  refine ⟨frameSamples (wordOf w) s.advance 40, ?_, fun t ht => ?_⟩
  · rw [hstep, deviceFrame, if_neg hfield]
    rfl
  · rw [show 39 - t = 40 - 1 - t from rfl, frameSamples_bit _ _ 40 t le_rfl ht, devOut_of_foreign _ hfield]
    rfl

/-! ### Responses (R97, R176, R194) -/

theorem bootInterrupts_rsp (s : State) : (bootInterrupts s).wires.rsp = s.wires.rsp := by
  unfold bootInterrupts
  split <;> rfl

theorem bootConsole_rsp (s : State) : (bootConsole s).wires.rsp = s.wires.rsp := by
  unfold bootConsole
  split <;> rfl

theorem bootMemory_rsp (s : State) : (bootMemory s).wires.rsp = s.wires.rsp := by
  unfold bootMemory
  dsimp only
  split <;> rfl

/-- A move from quiet wires shows a response only if it is the sequencer's response phase. -/
theorem Move.rsp_cases {e : Event} {s t : State} (m : Move e s t) (hs : s.wires.rsp = none) :
    (e = .turn .sequencer ∧ s.tPhase = .resp ∧ t = respStep s) ∨ t.wires.rsp = none := by
  cases m
  case txnResp hp => exact .inl ⟨rfl, hp, rfl⟩
  case reset => exact .inr rfl
  case bootInterrupts => exact .inr ((bootInterrupts_rsp s).trans hs)
  case bootConsole => exact .inr ((bootConsole_rsp s).trans hs)
  case bootMemory => exact .inr ((bootMemory_rsp s).trans hs)
  all_goals exact .inr hs

/-- From quiet wires the response phase shows a byte to the host, and an identity after the loader's tenth byte. -/
theorem respStep_rsp_cases {s : State} {r : Response} (hs : s.wires.rsp = none) (h : (respStep s).wires.rsp = some r) :
    (∃ b, r = .byte b) ∧ s.lPhase ≠ .wait ∨ (∃ ip mac, r = .identity ip mac) ∧ s.lPhase = .wait ∧ s.lIdx = 9 := by
  by_cases hl : s.lPhase = .wait
  · by_cases hi : s.lIdx = 9
    · rw [respStep_last s hl hi] at h
      exact .inr ⟨⟨_, _, (Option.some.inj h).symm⟩, hl, hi⟩
    · rw [respStep_more s hl hi] at h
      simp [hs] at h
  · rw [respStep_host s hl] at h
    exact .inl ⟨⟨_, (Option.some.inj h).symm⟩, hl⟩

/-- Settles O45: a step begins with quiet wires, and of the moves only the response phase shows a response. -/
theorem responseOnlyOnDelivery : Obligations.ResponseOnlyOnDelivery := by
  intro s t r h hr
  obtain ⟨he, hp, rfl⟩ | hnone := (step_move s t h).rsp_cases rfl
  · exact ⟨he, hp, respStep_rsp_cases (s := s.advance) rfl hr⟩
  · simp [hnone] at hr

end Sys2Proof.Machine

/-! ### The host's register operations (R120 to R131) -/

namespace Sys2Proof.Machine

open Sys2Proof

/-! Entitlement gates every register operation, and `BUSY` the three writes that store. -/

theorem hostAccess_of_entitled {s : State} (he : hostEntitled s = true) (op : State → Result) :
    hostAccess op s = op s :=
  if_pos he

theorem hostAccess_of_not_entitled {s : State} (he : hostEntitled s = false) (op : State → Result) :
    hostAccess op s = .refused .notEntitled :=
  if_neg (by simp [he])

/-- While a block command runs the host is not entitled (R131). -/
theorem not_hostEntitled_of_command {s : State} (h : s.tPhase ≠ .idle ∨ s.lPhase = .req ∨ s.lPhase = .wait) :
    hostEntitled s = false := by
  rw [← Bool.not_eq_true, hostEntitled_iff]
  rintro ⟨hp, hq⟩
  obtain ⟨hreq, hwait⟩ := not_req_not_wait_of_quiet hq
  obtain h | h | h := h
  · exact h hp
  · exact hreq h
  · exact hwait h

theorem csWrite_of_busy {s : State} (hb : s.busy = true) (v : BusWord) : csWrite v s = .refused .writeWhileBusy :=
  if_pos hb

theorem mosiWrite_of_busy {s : State} (hb : s.busy = true) (v : BusWord) : mosiWrite v s = .refused .writeWhileBusy :=
  if_pos hb

theorem ctrlWrite_of_busy {s : State} (hb : s.busy = true) (v : BusWord) : ctrlWrite v s = .refused .writeWhileBusy :=
  if_pos hb

/-! The control values that no write at rest accepts (R122). -/

theorem ctrlWrite_of_unselected {s : State} (hb : s.busy = false) (hc : s.cs = false) {v : BusWord}
    (hk : ctrlKind v = .start) : ctrlWrite v s = .refused .startUnselected := by
  simp [ctrlWrite, hb, hc, hk]

theorem ctrlWrite_of_reservedLength {s : State} (hb : s.busy = false) {v : BusWord}
    (hk : ctrlKind v = .reservedLength) : ctrlWrite v s = .refused .reservedLength := by
  simp [ctrlWrite, hb, hk]

theorem ctrlWrite_of_reservedCount {s : State} (hb : s.busy = false) {v : BusWord}
    (hk : ctrlKind v = .reservedCount) : ctrlWrite v s = .refused .reservedCount := by
  simp [ctrlWrite, hb, hk]

/-! What a one-bit register reads as, and what an access that stores nothing leaves. -/

/-- A single bit on the register bus is the number 1 or 0 (R123, R125). -/
theorem busWord_ofBool (b : Bool) : ((BitVec.ofBool b).setWidth 64 : BusWord) = if b then 1 else 0 := by
  cases b <;> rfl

/-- A shown access is undone by taking the wires back. -/
theorem State.shows_restore (s : State) (a : Access) : { s.shows a with wires := s.wires } = s := rfl

/-- An entitled read shows the register's value (R73). -/
theorem hostAccess_regRead {s : State} (he : hostEntitled s = true) (r : Reg) :
    hostAccess (fun t => .next (regRead r t)) s = .next (s.shows (.got r (readValue s r))) :=
  hostAccess_of_entitled he _

/-- An entitled write that is ignored shows its operand (R128, R129). -/
theorem hostAccess_regIgnore {s : State} (he : hostEntitled s = true) (r : Reg) (v : BusWord) :
    hostAccess (fun t => .next (regIgnore r v t)) s = .next (s.shows (.wrote r v)) :=
  hostAccess_of_entitled he _

/-- The reads and the ignored writes show an access and do nothing else (R73, R128, R129). -/
theorem exec_shows_of_entitled {s : State} (he : hostEntitled s = true) (v : BusWord) :
    ∀ i ∈ [Instr.statusRd, .misoRd, .csRd, .mosiRd, .ctrlRd, .statusWr v, .misoWr v],
      ∃ a, exec i s = .next (s.shows a) := by
  simp only [List.forall_mem_cons]
  exact ⟨⟨_, hostAccess_regRead he .spiStatus⟩, ⟨_, hostAccess_regRead he .spiMiso⟩,
    ⟨_, hostAccess_regRead he .spiCs⟩, ⟨_, hostAccess_regRead he .spiMosi⟩, ⟨_, hostAccess_regRead he .spiCtrl⟩,
    ⟨_, hostAccess_regIgnore he .spiStatus v⟩, ⟨_, hostAccess_regIgnore he .spiMiso v⟩, List.forall_mem_nil _⟩

/-- The twelve operations a host performs on a register are host accesses (R131, R72). -/
theorem exec_eq_hostAccess (v : BusWord) :
    ∀ i ∈ [Instr.csWr v, .mosiWr v, .ctrlWr v, .statusRd, .misoRd, .csRd, .mosiRd, .ctrlRd, .statusWr v, .misoWr v,
        .idMacWr v, .idIpWr v],
      ∃ op, exec i = hostAccess op := by
  simp only [List.forall_mem_cons]
  exact ⟨⟨_, rfl⟩, ⟨_, rfl⟩, ⟨_, rfl⟩, ⟨_, rfl⟩, ⟨_, rfl⟩, ⟨_, rfl⟩, ⟨_, rfl⟩, ⟨_, rfl⟩, ⟨_, rfl⟩, ⟨_, rfl⟩,
    ⟨_, rfl⟩, ⟨_, rfl⟩, List.forall_mem_nil _⟩

/-! The operations one by one. -/

/-- Settles O3: an entitled access at rest performs the write of `SPI_CS`. -/
theorem csWriteStoresBitZero : Obligations.CsWriteStoresBitZero := fun v s he hb =>
  (hostAccess_next _ s _).mpr ⟨he, (csWrite_next v s _).mpr ⟨hb, rfl⟩⟩

/-- Settles O4: an entitled access at rest performs the write of `SPI_MOSI`. -/
theorem mosiWriteStoresWord : Obligations.MosiWriteStoresWord := fun v s he hb =>
  (hostAccess_next _ s _).mpr ⟨he, (mosiWrite_next v s _).mpr ⟨hb, rfl⟩⟩

/-- Settles O5: the two accepted cases are those of `ctrlWrite_next`, the other three are refused by the kind of the
control value. -/
theorem ctrlWriteAllCases : Obligations.CtrlWriteAllCases := by
  rintro v s _ _ he hb rfl rfl
  have hexec : exec (.ctrlWr v) s = ctrlWrite v s := hostAccess_of_entitled he (ctrlWrite v)
  have hlen : 1 ≤ (ctrlLen v).toNat → ctrlLen v ≠ 0 := fun hl h => by simp [h] at hl
  rw [hexec]
  refine ⟨fun hc => ?store, fun hc hl hl' hcs => ?start, fun hc hl hl' hcs => ?unselected, fun hc hl => ?badLength,
    fun hc => ?badCount⟩
  case store => exact (ctrlWrite_next v s _).mpr ⟨hb, .inl ⟨hc, rfl⟩⟩
  case start =>
    exact ⟨_, (ctrlWrite_next v s _).mpr ⟨hb, .inr ⟨hc, hlen hl, hl', hcs, rfl⟩⟩, rfl, bitcnt_of_length hl'⟩
  case unselected => exact ctrlWrite_of_unselected hb hcs ((ctrlKind_start v).mpr ⟨hc, hlen hl, hl'⟩)
  case badLength => exact ctrlWrite_of_reservedLength hb (ctrlKind_of_reservedLength hc hl)
  case badCount => exact ctrlWrite_of_reservedCount hb (ctrlKind_of_reservedCount hc)

/-- Settles O6: the status value is `DONE` as a number. -/
theorem statusReadReturnsDone : Obligations.StatusReadReturnsDone := by
  intro s he
  rw [← busWord_ofBool]
  exact hostAccess_regRead he .spiStatus

/-- Settles O7: an entitled access performs the read, whatever `BUSY` is. -/
theorem misoReadReturnsResponse : Obligations.MisoReadReturnsResponse := fun _ he => hostAccess_regRead he .spiMiso

/-- Settles O8: an entitled access performs each read, and the enable is read as a number. -/
theorem readBacksReturnStored : Obligations.ReadBacksReturnStored := by
  intro s he
  rw [← busWord_ofBool]
  exact ⟨hostAccess_regRead he .spiCs, hostAccess_regRead he .spiMosi, hostAccess_regRead he .spiCtrl⟩

/-- Settles O9: an entitled access performs the ignored write. -/
theorem readOnlyWritesIgnored : Obligations.ReadOnlyWritesIgnored := fun v _ he =>
  ⟨hostAccess_regIgnore he .spiStatus v, hostAccess_regIgnore he .spiMiso v⟩

/-- Settles O10: `BUSY` refuses the three writes, and the other seven show an access and do nothing else. -/
theorem busyGatesOnlyWrites : Obligations.BusyGatesOnlyWrites := by
  intro v s he hb
  constructor
  · simp only [List.forall_mem_cons]
    exact ⟨(hostAccess_of_entitled he (csWrite v)).trans (csWrite_of_busy hb v),
      (hostAccess_of_entitled he (mosiWrite v)).trans (mosiWrite_of_busy hb v),
      (hostAccess_of_entitled he (ctrlWrite v)).trans (ctrlWrite_of_busy hb v), List.forall_mem_nil _⟩
  · intro i hi
    obtain ⟨a, ha⟩ := exec_shows_of_entitled he v i hi
    exact ⟨s.shows a, ha, s.shows_restore a⟩

/-- Settles O11: all twelve are host accesses, and the host is not entitled. -/
theorem hostRefusedDuringCommand : Obligations.HostRefusedDuringCommand := by
  intro v s h i hi
  obtain ⟨op, hop⟩ := exec_eq_hostAccess v i hi
  rw [hop, hostAccess_of_not_entitled (not_hostEntitled_of_command h)]

end Sys2Proof.Machine

/-! ### The device's bits (R144, R150) -/

namespace Sys2Proof.Machine

open Sys2Proof

/-- A field of a word is the value whose bits it has, top bit first. -/
theorem setWidth_ushiftRight_eq_iff {n k : Nat} {m : Frame} {x : BitVec n} :
    (m >>> k).setWidth n = x ↔ ∀ u < n, m.getLsbD (k + (n - 1 - u)) = x.getLsbD (n - 1 - u) := by
  have hbit (j : Nat) (hj : j < n) : ((m >>> k).setWidth n).getLsbD j = m.getLsbD (k + j) := by
    simp [hj]
  constructor
  · rintro rfl u hu
    exact (hbit _ (by omega)).symm
  · intro h
    apply BitVec.eq_of_getLsbD_eq
    intro j hj
    rw [hbit j hj]
    simpa [show n - 1 - (n - 1 - j) = j by omega] using h (n - 1 - j) (by omega)

section Device

variable {flash : FlashAddr → Byte} {m : Frame} {len t : Nat}

/-- The device listens for the first 32 periods (R150). -/
theorem devOut_early (ht : t < 32) : devOut flash m len t = none :=
  if_neg fun ⟨h, _⟩ => absurd h (by omega)

/-- A device that drives a bit drives all later bits of the frame. -/
theorem devOut_isSome_later (h : (devOut flash m len t).isSome) {u : Nat} (htu : t ≤ u) (hu : u < 40) :
    (devOut flash m len u).isSome := by
  unfold devOut at h ⊢
  split at h
  case isTrue hd => rw [if_pos ⟨htu.trans' hd.1, hu, hd.2.2⟩]; rfl
  case isFalse => simp at h

/-- After a read frame the device drives the addressed byte, bit 7 first (R150). -/
theorem devOut_outWord (a : FlashAddr) (h32 : 32 ≤ t) (h40 : t < 40) :
    devOut flash (outWord a) 40 t = some ((flash a).getLsbD (39 - t)) := by
  have hop : (outWord a >>> (40 - 8)).setWidth 8 = Config.opcRead :=
    BitVec.setWidth_ushiftRight_eq_extractLsb .. ▸ outWord_opcode a
  have haddr : (outWord a >>> (40 - 32)).setWidth 24 = a :=
    BitVec.setWidth_ushiftRight_eq_extractLsb .. ▸ outWord_address a
  rw [devOut, if_pos ⟨h32, h40, hop⟩, haddr]

end Device

/-- Settles O36: the device's two tests compare the two fields of the driven word bit by bit. -/
theorem deviceKeepsContract : Obligations.DeviceKeepsContract := by
  intro flash m len t a hlen ht
  refine ⟨devOut_early, fun h32 hop haddr => ?_, fun h32 ⟨u, hu, hne⟩ => if_neg fun ⟨_, _, hop⟩ => ?_⟩
  · have hop : (m >>> (len - 8)).setWidth 8 = Config.opcRead :=
      setWidth_ushiftRight_eq_iff.mpr fun u hu => by
        rw [show len - 8 + (8 - 1 - u) = len - 1 - u by omega]
        exact hop u hu
    have haddr : (m >>> (len - 32)).setWidth 24 = a :=
      setWidth_ushiftRight_eq_iff.mpr fun u hu => by
        rw [show len - 32 + (24 - 1 - u) = len - 1 - (8 + u) by omega]
        exact haddr u hu
    rw [devOut, if_pos ⟨h32, by omega, hop⟩, haddr]
  · apply hne
    rw [show len - 1 - u = len - 8 + (8 - 1 - u) by omega]
    exact setWidth_ushiftRight_eq_iff.mp hop u hu

/-- Settles O15: the samples of the frame are the device's bits of `outWord a`, and draws before period 32. -/
theorem flashReadAnswersByte : Obligations.FlashReadAnswersByte := by
  intro a s
  refine ⟨frameSamples (outWord a) s 40, ?_, ?_, fun t ht => ?_⟩
  · simp only [exec, execFlashRead, deviceFrame, outWord_opcode, outWord_address, if_true]
  · apply BitVec.eq_of_getLsbD_eq
    intro j hj
    have hbit := frameSamples_bit (outWord a) s 40 (39 - j) le_rfl (by omega)
    rw [devOut_outWord a (by omega) (by omega), show 40 - 1 - (39 - j) = j by omega] at hbit
    simpa [hj] using hbit
  · rw [show 39 - t = 40 - 1 - t from rfl, frameSamples_bit _ _ 40 t le_rfl (by omega), devOut_early ht]
    rfl

end Sys2Proof.Machine

/-! ### The transfer agent's steps and the lines (R141 to R145) -/

namespace Sys2Proof.Machine

open Sys2Proof

section Serializer

variable {s : State}

theorem execXferShift_of_enabled (he : shiftEnabled s = true) : exec .xferShift s = .next (shiftStep s) :=
  if_pos he

theorem execXferShift_of_disabled (he : shiftEnabled s = false) : exec .xferShift s = .next s :=
  if_neg (by simp [he])

theorem execXferComplete_of_enabled (he : completeEnabled s = true) :
    exec .xferComplete s = .next (completeStep s) :=
  if_pos he

theorem execXferComplete_of_disabled (he : completeEnabled s = false) : exec .xferComplete s = .next s :=
  if_neg (by simp [he])

/-- The turn of the transfer agent shifts while bits remain (R140). -/
theorem takeTurn_transfer_shift (he : shiftEnabled s = true) : takeTurn .transfer s = .next (shiftStep s) :=
  if_pos he

/-- After the last bit the turn completes an answered transfer (R140). -/
theorem takeTurn_transfer_complete (he : completeEnabled s = true) :
    takeTurn .transfer s = .next (completeStep s) := by
  obtain ⟨-, hn, -⟩ := (completeEnabled_iff s).mp he
  have hs : ¬ shiftEnabled s = true := fun h => ((shiftEnabled_iff s).mp h).2 hn
  simp only [takeTurn, transferTurn, if_neg hs, if_pos he]

/-- A device that does not answer the transfer drives nothing (R152, P4). -/
theorem devSample_of_unanswered (hr : flashResponds s (s.tOrd - 1) = false) : devSample s = none :=
  if_neg fun ⟨_, h⟩ => by simp [hr] at h

/-- A selected device that answers the transfer drives `DevOut` (R150). -/
theorem devSample_of_answered (hb : s.busy = true) (hc : s.cs = true) (hr : flashResponds s (s.tOrd - 1) = true) :
    devSample s = devOut (flashAt s) s.mosi s.ctrlLength.toNat (bitTime s) :=
  if_pos ⟨by simp [sel, hb, hc], hr⟩

/-- The count goes down by one (R143). -/
theorem shiftStep_bitcnt_toNat (hn : s.bitcnt ≠ 0) : (shiftStep s).bitcnt.toNat + 1 = s.bitcnt.toNat := by
  rw [shiftStep_bitcnt]
  bv_omega

/-- The sample enters `MISO` at bit 0 (R143). -/
theorem shiftStep_miso_zero (s : State) : (shiftStep s).miso.getLsbD 0 = sampleBit s := by
  simp

/-- Every bit of `MISO` moves up by one (R143). -/
theorem shiftStep_miso_succ (s : State) {j : Nat} (hj : j + 1 < 40) :
    (shiftStep s).miso.getLsbD (j + 1) = s.miso.getLsbD j := by
  simp [hj, -BitVec.getLsbD_eq_getElem]

/-- `SEL` is active exactly while a transfer runs (R141). -/
theorem ControlInv.sel_eq_busy (h : ControlInv s) : sel s = s.busy := by
  cases hb : s.busy with
  | false => simp [sel, hb]
  | true => simp [sel, hb, h.busySelected hb]

/-- In a bit period the line carries `MOSI` bit by bit, from `MOSI[LENGTH - 1]` down (R143). -/
theorem ControlInv.mosiLine_eq (h : ControlInv s) (he : shiftEnabled s = true) :
    mosiLine s = s.mosi.getLsbD (s.ctrlLength.toNat - 1 - bitTime s) := by
  obtain ⟨hb, hn⟩ := (shiftEnabled_iff s).mp he
  obtain ⟨hle, hlen⟩ := h.busyBits hb
  have hpos : s.bitcnt.toNat ≠ 0 := fun h0 => hn (BitVec.eq_of_toNat_eq h0)
  rw [mosiLine, h.busyTxsr hb, BitVec.getLsbD_shiftLeft, bitTime]
  simp [show ¬ 39 < 40 - s.bitcnt.toNat by omega,
    show s.ctrlLength.toNat - 1 - (s.ctrlLength.toNat - s.bitcnt.toNat) = 39 - (40 - s.bitcnt.toNat) by omega]

/-- With no bit left to send, nothing is left in the shift register (R143). -/
theorem ControlInv.txsr_eq_zero (h : ControlInv s) (hb : s.busy = true) (hn : s.bitcnt = 0) : s.txsr = 0 := by
  simp [h.busyTxsr hb, hn]

end Serializer

/-- Settles O13: the completion is enabled, it clears `BUSY` and with it `SEL`, and no bit is left. -/
theorem completeSetsDone : Obligations.CompleteSetsDone := by
  intro s hb hn hr
  have he : completeEnabled s = true := (completeEnabled_iff s).mpr ⟨hb, hn, hr⟩
  exact ⟨completeStep s, execXferComplete_of_enabled he, rfl, by simp [sel], fun h => h.txsr_eq_zero hb hn⟩

/-- Settles O14: each condition disables the step asked for. -/
theorem disabledInternalStepsChangeNothing : Obligations.DisabledInternalStepsChangeNothing := by
  intro s
  constructor
  · refine fun h => execXferShift_of_disabled (Bool.eq_false_iff.mpr fun he => ?_)
    obtain ⟨hb, hn⟩ := (shiftEnabled_iff s).mp he
    rcases h with h | h
    · simp [hb] at h
    · exact hn h
  · refine fun h => execXferComplete_of_disabled (Bool.eq_false_iff.mpr fun he => ?_)
    obtain ⟨hb, hn, hr⟩ := (completeEnabled_iff s).mp he
    rcases h with h | h | h
    · simp [hb] at h
    · exact h hn
    · simp [hr] at h

/-- Settles O12: the step is enabled, its sample is the device's bit or a draw. -/
theorem shiftMovesOneBit : Obligations.ShiftMovesOneBit := by
  intro s hb hn
  have he : shiftEnabled s = true := (shiftEnabled_iff s).mpr ⟨hb, hn⟩
  refine ⟨⟨shiftStep s, sampleBit s, execXferShift_of_enabled he, fun b hd => ?_, fun hd => ?_, ?_,
    shiftStep_bitcnt_toNat hn⟩, devSample_of_unanswered, fun hr hc => devSample_of_answered hb hc hr,
    fun h => h.mosiLine_eq he⟩
  · rw [sampleBit, hd, Option.getD_some]
  · rw [sampleBit, hd, Option.getD_none]
  · cases hd : devSample s <;> simp [shiftStep, hd, mosiLine]

/-- Settles O52: `SEL` follows `BUSY`, and the line follows `MOSI`. -/
theorem selectFramesTransfer : Obligations.SelectFramesTransfer :=
  fun _ h => ⟨h.sel_eq_busy, h.mosiLine_eq⟩

end Sys2Proof.Machine

/-! ### The data invariant, one lemma per move that touches what it speaks of (R148, R199) -/

namespace Sys2Proof.Machine

open Sys2Proof

/-- The IP rule appends a byte to the big-endian number of the bytes before it (R195). -/
theorem ipNext_bigEndian {f : Nat → Byte} {acc : BitVec 32} {i : BitVec 4}
    (hacc : 1 ≤ i.toNat → acc = bigEndian 32 f i.toNat) :
    ipNext acc i (f i.toNat) = bigEndian 32 f (i.toNat + 1) := by
  by_cases hi : i = 0
  · simp [ipNext, hi, bigEndian]
  · rw [ipNext, if_neg hi, hacc (by bv_omega), bigEndian]

/-- The MAC rule appends a byte to the big-endian number of the bytes after the fourth (R196). -/
theorem macNext_bigEndian {f : Nat → Byte} {acc : BitVec 64} {i : BitVec 4} (h4 : 4 ≤ i.toNat)
    (hacc : 5 ≤ i.toNat → acc = bigEndian 64 f (i.toNat - 4)) :
    macNext acc i (f (i.toNat - 4)) = bigEndian 64 f (i.toNat - 4 + 1) := by
  by_cases hi : i = 4
  · simp [macNext, hi, bigEndian]
  · rw [macNext, if_neg hi, hacc (by bv_omega), bigEndian]

section DataInvariant

variable {s : State}

/-- The device drives the read frame's byte in the last eight periods, so the sample before `n` remaining ones is its
bit `n` (R150). -/
theorem ControlInv.sampleBit_eq (hc : ControlInv s) (he : shiftEnabled s = true) (hp : s.tPhase = .poll)
    (hr : flashResponds s (s.tOrd - 1) = true) (h8 : s.bitcnt.toNat ≤ 8) :
    sampleBit s = (flashAt s s.tAddr).getLsbD (s.bitcnt.toNat - 1) := by
  obtain ⟨hb, hn⟩ := (shiftEnabled_iff s).mp he
  have hpos : s.bitcnt.toNat ≠ 0 := fun h0 => hn (BitVec.eq_of_toNat_eq h0)
  have hlen : s.ctrlLength.toNat = 40 := by simp [hc.length (.inl hp)]
  rw [sampleBit, devSample_of_answered hb (hc.busySelected hb) hr, hc.framed (.inr (.inl hp)), bitTime, hlen,
    devOut_outWord _ (by omega) (by omega), Option.getD_some]
  congr 1
  omega

/-- One bit period moves the byte's bits up and takes in the next one (R147, R150). -/
theorem DataInv.shiftStep (h : DataInv s) (hc : ControlInv s) (he : shiftEnabled s = true) :
    DataInv (shiftStep s) := by
  obtain ⟨hb, hn⟩ := (shiftEnabled_iff s).mp he
  have hcnt := shiftStep_bitcnt_toNat hn
  exact { h with
    shifting := fun hp _ hr j hj => by
      cases j with
      | zero =>
        rw [shiftStep_miso_zero, hc.sampleBit_eq he hp hr (by omega), ← hcnt, Nat.zero_add, Nat.add_sub_cancel]
        rfl
      | succ j =>
        rw [shiftStep_miso_succ s (by omega), h.shifting hp hb hr j (by omega), ← hcnt]
        congr 1
        omega
    received := by simp [hb] }

/-- With the last bit taken in, the low byte is the addressed one (R148). -/
theorem DataInv.completeStep (h : DataInv s) (hc : ControlInv s) (he : completeEnabled s = true) :
    DataInv (completeStep s) := by
  obtain ⟨hb, hn, hr⟩ := (completeEnabled_iff s).mp he
  exact { h with
    shifting := by simp
    received := fun hp _ => by
      obtain hp | hp : s.tPhase = .poll ∨ s.tPhase = .resp := hp
      · apply BitVec.eq_of_getLsbD_eq
        intro j hj
        have hbit : s.miso.getLsbD j = (flashAt s s.tAddr).getLsbD j := by
          simpa [hn] using h.shifting hp hb hr j (by simpa [hn] using hj)
        rw [respByte, BitVec.getLsbD_setWidth, decide_eq_true hj, Bool.true_and]
        exact hbit
      · simp [(hc.complete hp).1] at hb }

/-- One poll: the response phase is entered with the byte received (R175). -/
theorem DataInv.pollStep (h : DataInv s) (hp : s.tPhase = .poll) : DataInv (pollStep s) := by
  cases hd : s.done with
  | false =>
    rw [pollStep_more s hp hd]
    exact { h with }
  | true =>
    rw [pollStep_last s hd]
    exact { h with
      shifting := by simp
      received := fun _ => h.received (.inl hp) }

/-- In `T_RESP` the byte for a waiting loader is the record's byte of its index (R64, R148, R192). -/
theorem DataInv.respByte_eq (h : DataInv s) (hc : ControlInv s) (hp : s.tPhase = .resp) (hl : s.lPhase = .wait) :
    respByte s.miso = recordByte s s.lIdx.toNat := by
  rw [h.received (.inr hp) (hc.complete hp).1, (hc.waiting hl).2, (hc.pointer (by simp [hl])).1, recordByte,
    BitVec.ofNat_toNat]

/-- The IP accumulator after one more byte of the record: it takes the first four (R193, R195). -/
theorem DataInv.ip_next (h : DataInv s) (hl : s.lPhase = .wait) :
    (if s.lIdx.toNat < 4 then ipNext s.ipAcc s.lIdx (recordByte s s.lIdx.toNat) else s.ipAcc) =
      bigEndian 32 (recordByte s) (min (s.lIdx.toNat + 1) 4) := by
  have hip := h.ip (by simp [hl])
  split
  case isTrue hlt =>
    rw [Nat.min_eq_left hlt.le] at hip
    rw [Nat.min_eq_left hlt]
    exact ipNext_bigEndian hip
  case isFalse hge =>
    rw [hip (by omega)]
    congr 1
    omega

/-- The MAC accumulator after one more byte of the record, from the fifth on (R193, R196). -/
theorem DataInv.mac_next (h : DataInv s) (hl : s.lPhase = .wait) (h4 : 4 ≤ s.lIdx.toNat) :
    macNext s.macAcc s.lIdx (recordByte s s.lIdx.toNat) =
      bigEndian 64 (fun i => recordByte s (i + 4)) (s.lIdx.toNat + 1 - 4) := by
  have hmac := macNext_bigEndian h4 (h.mac (by simp [hl]))
  rwa [Nat.sub_add_cancel h4, ← Nat.sub_add_comm h4] at hmac

/-- After `T_RESP` only the accumulators are spoken of. -/
theorem DataInv.leaveResp {b : Byte} {l : LPhase} {i : BitVec 4} {p : FlashAddr} {ip : BitVec 32} {mac : BitVec 64}
    {bs : BState} {w : Wires}
    (hip : l ≠ .idle → 1 ≤ i.toNat → ip = bigEndian 32 (recordByte s) (min i.toNat 4))
    (hmac : l ≠ .idle → 5 ≤ i.toNat → mac = bigEndian 64 (fun j => recordByte s (j + 4)) (i.toNat - 4)) :
    DataInv { s with
      tData := b, tPhase := .idle, lPhase := l, lIdx := i, lPtr := p, ipAcc := ip, macAcc := mac, bState := bs,
      wires := w } where
  shifting := by simp
  received := by simp
  ip := hip
  mac := hmac

/-- The response phase, to the host, to the loader, or to the loader as its last byte (R176, R193, R194). -/
theorem DataInv.respStep (h : DataInv s) (hc : ControlInv s) (hp : s.tPhase = .resp) : DataInv (respStep s) := by
  by_cases hl : s.lPhase = .wait
  · have hlt := hc.index_lt_ten hl
    have hip := h.ip_next hl
    have hmac := h.mac_next hl
    have hnext : (s.lIdx + 1).toNat = s.lIdx.toNat + 1 := by bv_omega
    rw [← h.respByte_eq hc hp hl, ← hnext] at hip hmac
    by_cases hi : s.lIdx = 9
    · rw [respStep_last s hl hi]
      refine .leaveResp (fun _ _ => ?_) fun _ _ => ?_
      · simpa [hi] using hip
      · simpa [hi, macNext] using hmac
    · rw [respStep_more s hl hi]
      refine .leaveResp (fun _ _ => hip) fun _ h5 => ?_
      rw [if_neg (by omega)]
      exact hmac (by omega)
  · rw [respStep_host s hl]
    exact .leaveResp h.ip h.mac

end DataInvariant

/-- Every move keeps the data invariant. Before a transfer and between transactions it says nothing of `MISO`; a
transfer starts with no bit received; a load starts with no byte. -/
theorem DataInv.move {e : Event} {s t : State} (h : DataInv s) (hc : ControlInv s) (m : Move e s t) : DataInv t := by
  cases m
  case readByte | txnSel | txnCmd => exact { h with shifting := by simp, received := by simp }
  case request hl _ =>
    have hn : s.lPhase ≠ .idle := by simp [hl]
    exact { shifting := by simp, received := by simp, ip := fun _ => h.ip hn, mac := fun _ => h.mac hn }
  case hostStart he _ _ =>
    obtain ⟨hp, -⟩ := (hostEntitled_iff s).mp he
    exact { h with shifting := by simp [hp], received := by simp }
  case txnGo => exact { h with shifting := fun _ _ _ j hj => absurd hj (by simp), received := by simp }
  case loadIdentity | bootLoad => exact { h with ip := by simp, mac := by simp }
  case txnPoll hp => exact h.pollStep hp
  case txnResp hp => exact h.respStep hc hp
  case shift hs => exact h.shiftStep hc hs
  case complete hs => exact h.completeStep hc hs
  case reset => exact dataInv_resetEvent s
  case bootInterrupts => rw [bootInterrupts_frame]; exact { h with }
  case bootConsole => rw [bootConsole_frame]; exact { h with }
  case bootMemory => rw [bootMemory_frame]; exact { h with }
  case ignored | hostCs | hostMosi | hostLength | hostSees | device | hostMac | hostIp => exact { h with }
  case rest | bootMac | bootIp | bootIdle => exact { h with }

/-- The invariant does not see the start of a step, which takes the event and quiets the wires. -/
theorem DataInv.advance {s : State} (h : DataInv s) : DataInv s.advance := { h with }

/-- Settles O40, by the cases of the moves a step can make. -/
theorem everyStepKeepsData : Obligations.EveryStepKeepsData :=
  fun s t hc hd hs => hd.advance.move hc.advance (step_move s t hs)

end Sys2Proof.Machine

/-! ### A whole transfer (R147) -/

namespace Sys2Proof.Machine

open Sys2Proof

/-- The bit that the rest of an answered transfer leaves at place `j` of `MISO`: the sample of time `LENGTH - 1 - j`,
driven or drawn (R144, R147). -/
def arrivingBit (s : State) (j : Nat) : Bool :=
  (devOut (flashAt s) s.mosi s.ctrlLength.toNat (s.ctrlLength.toNat - 1 - j)).getD
    (drawAt s (s.drawIdx + (s.bitcnt.toNat - 1 - j)))

/-- What the rest of an answered transfer leaves at place `j` of `MISO`: the samples to come, and above them the old
response (R147). -/
def finalMisoBit (s : State) (j : Nat) : Bool :=
  if j < s.bitcnt.toNat then arrivingBit s j else s.miso.getLsbD (j - s.bitcnt.toNat)

/-- A step whose event is a turn takes it, from the state with the event taken off. -/
theorem step_eq_takeTurn {s : State} {u : Turn} (h : nextEvent s = .turn u) : step s = takeTurn u s.advance := by
  simp only [step, h, runEvent]

section Transfer

variable {s : State}

/-- The next sample of an answered transfer goes to the highest place still to come. -/
theorem sampleBit_eq_arrivingBit (h : ControlInv s) (he : shiftEnabled s = true)
    (hr : flashResponds s (s.tOrd - 1) = true) : sampleBit s = arrivingBit s (s.bitcnt.toNat - 1) := by
  obtain ⟨hb, hn⟩ := (shiftEnabled_iff s).mp he
  have hle := (h.busyBits hb).1
  have hcnt := shiftStep_bitcnt_toNat hn
  have htime : s.ctrlLength.toNat - 1 - (s.bitcnt.toNat - 1) = bitTime s := by
    unfold bitTime
    omega
  rw [sampleBit, devSample_of_answered hb (h.busySelected hb) hr, arrivingBit, htime, Nat.sub_self, Nat.add_zero]

/-- A bit period does not change what the later ones bring: it uses up its draw, or the device drives from here on. -/
theorem arrivingBit_shiftStep (h : ControlInv s) (he : shiftEnabled s = true)
    (hr : flashResponds s (s.tOrd - 1) = true) {j : Nat} (hj : j + 1 < s.bitcnt.toNat) :
    arrivingBit (shiftStep s) j = arrivingBit s j := by
  obtain ⟨hb, hn⟩ := (shiftEnabled_iff s).mp he
  obtain ⟨hle, hlen⟩ := h.busyBits hb
  have hcnt := shiftStep_bitcnt_toNat hn
  have hdev := devSample_of_answered hb (h.busySelected hb) hr
  cases hd : devSample s with
  | none =>
    have hdraw : (shiftStep s).drawIdx + ((shiftStep s).bitcnt.toNat - 1 - j) =
        s.drawIdx + (s.bitcnt.toNat - 1 - j) := by
      rw [shiftStep_drawIdx, hd, Option.isSome_none, if_neg Bool.false_ne_true]
      omega
    rw [arrivingBit, hdraw]
    rfl
  | some b =>
    have hnow : (devOut (flashAt s) s.mosi s.ctrlLength.toNat (bitTime s)).isSome := by rw [← hdev, hd]; rfl
    have hlater : bitTime s ≤ s.ctrlLength.toNat - 1 - j := by
      unfold bitTime
      omega
    obtain ⟨c, hc⟩ := Option.isSome_iff_exists.mp (devOut_isSome_later hnow hlater (by omega))
    rw [arrivingBit, flashAt_congr (shiftStep_flash s), shiftStep_mosi, shiftStep_ctrlLength, arrivingBit, hc]
    rfl

/-- A bit period does not change what the transfer leaves in `MISO`: its sample is the lowest bit in, at the place it is
to move up from. -/
theorem finalMisoBit_shiftStep (h : ControlInv s) (he : shiftEnabled s = true)
    (hr : flashResponds s (s.tOrd - 1) = true) {j : Nat} (hj : j < 40) :
    finalMisoBit (shiftStep s) j = finalMisoBit s j := by
  have hcnt := shiftStep_bitcnt_toNat ((shiftEnabled_iff s).mp he).2
  unfold finalMisoBit
  rw [← hcnt]
  generalize hn : (shiftStep s).bitcnt.toNat = n at hcnt ⊢
  rcases Nat.lt_trichotomy j n with hlt | rfl | hgt
  · rw [if_pos hlt, if_pos (by omega), arrivingBit_shiftStep h he hr (by omega)]
  · rw [if_neg (lt_irrefl _), if_pos (by omega), Nat.sub_self, shiftStep_miso_zero,
      sampleBit_eq_arrivingBit h he hr, ← hcnt, Nat.add_sub_cancel]
  · rw [if_neg (by omega), if_neg (by omega), show j - n = j - (n + 1) + 1 by omega, shiftStep_miso_succ s (by omega)]

/-- The shifts that are left of an answered transfer, in a row: they bring in their samples, first one on top, and move
the old response up (R143, R147). -/
theorem run_shifts {n : Nat} {rest : List Event} (h : ControlInv s) (hb : s.busy = true)
    (hr : flashResponds s (s.tOrd - 1) = true) (hn : s.bitcnt.toNat = n)
    (ha : s.agenda = turns (List.replicate n .transfer) ++ rest) :
    ∃ t, run n s = .next t ∧ ControlInv t ∧
      t = { s with
        txsr := t.txsr, miso := t.miso, bitcnt := 0, agenda := rest, tick := t.tick, drawIdx := t.drawIdx,
        wires := t.wires } ∧
      ∀ j < 40, t.miso.getLsbD j = finalMisoBit s j := by
  induction n generalizing s with
  | zero =>
    have hzero : s.bitcnt = 0 := BitVec.eq_of_toNat_eq hn
    have hrest : s.agenda = rest := ha
    exact ⟨s, rfl, h, by rw [← hzero, ← hrest], fun _ _ => by simp [finalMisoBit, hn]⟩
  | succ n ih =>
    have hne : s.bitcnt ≠ 0 := fun h0 => by simp [h0] at hn
    have he : shiftEnabled s.advance = true := (shiftEnabled_iff _).mpr ⟨hb, hne⟩
    have hstep : step s = .next (shiftStep s.advance) := by
      rw [step_eq_takeTurn (by rw [nextEvent, ha]; rfl), takeTurn_transfer_shift he]
    have hcnt : (shiftStep s.advance).bitcnt.toNat = n := Nat.succ.inj ((shiftStep_bitcnt_toNat hne).trans hn)
    have hagenda : (shiftStep s.advance).agenda = turns (List.replicate n .transfer) ++ rest := congrArg List.tail ha
    obtain ⟨t, hrun, hinv, hframe, hmiso⟩ := ih (h.advance.shiftStep he) hb hr hcnt hagenda
    exact ⟨t, (run_succ n s _ hstep).trans hrun, hinv, hframe, fun j hj =>
      (hmiso j hj).trans (finalMisoBit_shiftStep h.advance he hr hj)⟩

end Transfer

/-- Settles O56: the shifts in a row, and then the completion, which leaves the response as it is. -/
theorem wholeTransferResult : Obligations.WholeTransferResult := by
  intro s rest h hb hn hr ha
  have hagenda : s.agenda = turns (List.replicate s.ctrlLength.toNat .transfer) ++ .turn .transfer :: rest := by
    simpa [turns, List.replicate_succ'] using ha
  obtain ⟨t, hrun, hinv, hframe, hmiso⟩ := run_shifts h hb hr hn hagenda
  have hbusy : t.busy = true := by rw [hframe]; exact hb
  have hmosi : t.mosi = s.mosi := by rw [hframe]
  have hlength : t.ctrlLength = s.ctrlLength := by rw [hframe]
  have hzero : t.bitcnt = 0 := by rw [hframe]
  have hresponds : flashResponds t (t.tOrd - 1) = true := by rw [hframe]; exact hr
  have he : completeEnabled t.advance = true := (completeEnabled_iff _).mpr ⟨hbusy, hzero, hresponds⟩
  have hagenda : t.agenda = .turn .transfer :: rest := by rw [hframe]
  have hstep : step t = .next (completeStep t.advance) := by
    rw [step_eq_takeTurn (by rw [nextEvent, hagenda]), takeTurn_transfer_complete he]
  refine ⟨completeStep t.advance, (run_add _ 1 s t hrun).trans (run_succ 0 t _ hstep), congrArg List.tail hagenda,
    hinv.txsr_eq_zero hbusy hzero, hzero, rfl, rfl, hmosi, hinv.busySelected hbusy, hlength,
    fun j hj => ?_⟩
  rw [completeStep_miso, State.advance_miso, hmiso j hj, finalMisoBit, arrivingBit, hn]

end Sys2Proof.Machine

/-! ### Progress of a transfer in a weakly fair run (R146) -/

namespace Sys2Proof

theorem decodeCommand_ne_transfer {w : BusWord} {i : Instr} (h : decodeCommand w = .ok i) :
    i ≠ .xferShift ∧ i ≠ .xferComplete := by
  unfold decodeCommand at h
  split_ifs at h <;> cases h <;> simp

theorem decodeWrite_ne_transfer {w : BusWord} {r : Reg} {i : Instr} (h : decodeWrite w r = .ok i) :
    i ≠ .xferShift ∧ i ≠ .xferComplete := by
  cases r
  case spiCtrl =>
    obtain ⟨rfl, -⟩ := (decodeControl_ok w i).mp h
    simp
  all_goals cases h; simp

theorem decodeRead_ne_transfer {r : Reg} {i : Instr} (h : decodeRead r = .ok i) :
    i ≠ .xferShift ∧ i ≠ .xferComplete := by
  cases r <;> cases h <;> simp

end Sys2Proof

namespace Sys2Proof.Machine

open Sys2Proof

/-- Resolving a bus address does not change who presents the request. -/
theorem fromHost_resolve (m : AddrMap) (q : Request) : fromHost (resolve m q) = fromHost q := by
  obtain ⟨sp, w⟩ := q
  cases sp
  case busWrite a => cases h : m.regAt a <;> simp [resolve, h, fromHost]
  case busRead a => cases h : m.regAt a <;> simp [resolve, h, fromHost]
  all_goals rfl

/-- The internal steps are not the host's to ask for (R13). -/
theorem fromHost_of_fetched_transfer {s : State} {q : Request} {i : Instr} (hq : fetched s q = .ok i)
    (hi : i = .xferShift ∨ i = .xferComplete) : fromHost q = false := by
  rw [← fromHost_resolve (addrMap s) q]
  unfold fetched at hq
  generalize resolve (addrMap s) q = p at hq ⊢
  obtain ⟨sp, w⟩ := p
  cases sp
  case command => exact absurd hi (not_or.mpr (decodeCommand_ne_transfer hq))
  case write r => exact absurd hi (not_or.mpr (decodeWrite_ne_transfer hq))
  case read r => exact absurd hi (not_or.mpr (decodeRead_ne_transfer hq))
  case wire | shift | complete => rfl
  all_goals cases hq

/-- A transfer runs and the device answers it (R146). -/
def Answered (s : State) : Prop := s.busy = true ∧ flashResponds s (s.tOrd - 1) = true

/-- A transfer is over (R145). -/
def Completed (s : State) : Prop := s.busy = false ∧ s.done = true

/-- An answered transfer shifts while bits remain and completes after the last: some step of it is enabled. -/
theorem Answered.enabled {s : State} (h : Answered s) : shiftEnabled s = true ∨ completeEnabled s = true := by
  by_cases hn : s.bitcnt = 0
  · exact .inr ((completeEnabled_iff s).mpr ⟨h.1, hn, h.2⟩)
  · exact .inl ((shiftEnabled_iff s).mpr ⟨h.1, hn⟩)

/-- While a transfer runs `BITCNT` is touched by a bit period only (R130, R143). -/
theorem Move.bitcnt_cases {e : Event} {s t : State} (m : Move e s t) (hb : s.busy = true) (he : e ≠ .turn .reset) :
    t.bitcnt = s.bitcnt ∨ shiftEnabled s = true ∧ t = shiftStep s := by
  cases m
  case reset => exact absurd rfl he
  case hostStart hb' _ => simp [hb] at hb'
  case txnGo hb' _ => simp [hb] at hb'
  case shift hs => exact .inr ⟨hs, rfl⟩
  case txnResp => rw [respStep_frame]; exact .inl rfl
  case bootInterrupts => rw [bootInterrupts_frame]; exact .inl rfl
  case bootConsole => rw [bootConsole_frame]; exact .inl rfl
  case bootMemory => rw [bootMemory_frame]; exact .inl rfl
  all_goals exact .inl rfl

/-- A move other than a reset completes an answered transfer, or leaves it running with no more bits to go. -/
theorem Move.answered_cases {e : Event} {s t : State} (m : Move e s t) (h : Answered s) (he : e ≠ .turn .reset) :
    Completed t ∨ Answered t ∧ t.bitcnt.toNat ≤ s.bitcnt.toNat := by
  obtain ⟨hreset, _⟩ | ⟨hb, _⟩ | ⟨_, hb', hd', _⟩ | ⟨hb', _, hord⟩ := m.transfer_cases
  · exact absurd hreset he
  · simp [h.1] at hb
  · exact .inl ⟨hb', hd'⟩
  · have hans : Answered t := by
      refine ⟨hb'.trans h.1, ?_⟩
      rw [flashResponds, m.flash_params.2, hord]
      exact h.2
    refine .inr ⟨hans, ?_⟩
    obtain hn | ⟨hs, rfl⟩ := m.bitcnt_cases h.1 he
    · rw [hn]
    · have := shiftStep_bitcnt_toNat ((shiftEnabled_iff s).mp hs).2
      omega

/-- A step of the transfer agent in an answered transfer is a bit period or the completion. -/
theorem runEvent_of_takesXfer {e : Event} {s : State} (hx : takesXfer e s) (h : Answered s) :
    (shiftEnabled s = true ∧ runEvent e s = .next (shiftStep s)) ∨ runEvent e s = .next (completeStep s) := by
  obtain rfl | ⟨q, rfl, ⟨hq, he⟩ | ⟨hq, he⟩⟩ := hx
  · obtain he | he := h.enabled
    · exact .inl ⟨he, takeTurn_transfer_shift he⟩
    · exact .inr (takeTurn_transfer_complete he)
  · have hq' := fromHost_of_fetched_transfer hq (.inl rfl)
    refine .inl ⟨he, ?_⟩
    rw [runEvent, perform_eq_answer (.inr hq'), answer_of_fetched_ok hq, execXferShift_of_enabled he]
  · have hq' := fromHost_of_fetched_transfer hq (.inr rfl)
    refine .inr ?_
    rw [runEvent, perform_eq_answer (.inr hq'), answer_of_fetched_ok hq, execXferComplete_of_enabled he]

section FairRun

variable {e : Nat → Event} {f : Nat → State}

/-- One step of a run: a completion, or the transfer goes on with no more bits to go. -/
theorem Execution.answered_cases (hx : Execution e f) (he : ∀ n, e n ≠ .turn .reset) {n : Nat} (h : Answered (f n)) :
    Completed (f (n + 1)) ∨ Answered (f (n + 1)) ∧ (f (n + 1)).bitcnt.toNat ≤ (f n).bitcnt.toNat :=
  (step_move _ _ (hx n)).answered_cases (s := ((f n).facing [e n]).advance) h (he n)

/-- Until it completes, an answered transfer stays answered, with ever fewer bits to go. -/
theorem Execution.answered_of_not_completed (hx : Execution e f) (he : ∀ n, e n ≠ .turn .reset) {n : Nat}
    (h : Answered (f n)) (hc : ∀ m, ¬ Completed (f m)) {m : Nat} (hm : n ≤ m) :
    Answered (f m) ∧ (f m).bitcnt.toNat ≤ (f n).bitcnt.toNat := by
  induction m, hm using Nat.le_induction with
  | base => exact ⟨h, le_rfl⟩
  | succ m _ ih =>
    obtain ⟨hans, hle⟩ := (hx.answered_cases he ih.1).resolve_left (hc (m + 1))
    exact ⟨hans, hle.trans ih.2⟩

/-- A step of the transfer agent in a run completes the transfer or takes one bit off the count. -/
theorem Execution.progress (hx : Execution e f) {n : Nat} (h : Answered (f n)) (ht : takesXfer (e n) (f n)) :
    Completed (f (n + 1)) ∨ (f (n + 1)).bitcnt.toNat < (f n).bitcnt.toNat := by
  have hstep : runEvent (e n) ((f n).facing [e n]).advance = .next ((f (n + 1)).facing []) := hx n
  obtain ⟨he, hs⟩ | hs := runEvent_of_takesXfer (s := ((f n).facing [e n]).advance) ht h
  · have hnext := Host.Outcome.next.inj (hs.symm.trans hstep)
    have hcnt : (f (n + 1)).bitcnt.toNat + 1 = (f n).bitcnt.toNat :=
      congrArg State.bitcnt hnext ▸ shiftStep_bitcnt_toNat ((shiftEnabled_iff _).mp he).2
    exact .inr (by omega)
  · have hnext := Host.Outcome.next.inj (hs.symm.trans hstep)
    have hbusy : (f (n + 1)).busy = false := (congrArg State.busy hnext).symm
    have hdone : (f (n + 1)).done = true := (congrArg State.done hnext).symm
    exact .inl ⟨hbusy, hdone⟩

/-- In a weakly fair run an answered transfer completes: the agent's step stays enabled until then, and each one taken
leaves fewer bits to go. -/
theorem Execution.completes (hx : Execution e f) (hf : WeaklyFair e f) (he : ∀ n, e n ≠ .turn .reset) {n : Nat}
    (h : Answered (f n)) : ∃ m, Completed (f m) := by
  by_contra hnever
  have hc : ∀ m, ¬ Completed (f m) := not_exists.mp hnever
  induction hk : (f n).bitcnt.toNat using Nat.strong_induction_on generalizing n with
  | _ k ih =>
    obtain ⟨m, hm, ht⟩ := hf n fun m hm => by
      simpa [xferEnabled] using (hx.answered_of_not_completed he h hc hm).1.enabled
    obtain ⟨hans, hle⟩ := hx.answered_of_not_completed he h hc hm
    have hlt := (hx.progress hans ht).resolve_left (hc (m + 1))
    have hnext := (hx.answered_of_not_completed he h hc (m := m + 1) (by omega)).1
    exact ih _ (by omega) hnext rfl

end FairRun

/-- Settles O60: the run starts with an answered transfer. -/
theorem fairTransferCompletes : Obligations.FairTransferCompletes :=
  fun _ _ hx hf he hb hr => hx.completes hf he (n := 0) ⟨hb, hr⟩

end Sys2Proof.Machine

/-! ### The sequencer, phase by phase (R171 to R176) -/

namespace Sys2Proof.Machine

open Sys2Proof

section Sequencer

variable {s : State}

theorem cmdReady_of_not_idle (hp : s.tPhase ≠ .idle) : cmdReady s = false := by
  simp [cmdReady, hp]

theorem execReadByte_of_ready (hr : cmdReady s = true) (a : FlashAddr) :
    exec (.readByte a) s = .next (acceptRead a s) :=
  if_pos hr

theorem execReadByte_of_not_ready (hr : cmdReady s = false) (a : FlashAddr) : exec (.readByte a) s = .next s :=
  if_neg (by simp [hr])

/-- Phase `T_SEL` sets the select enable (R172). -/
theorem takeTurn_sequencer_sel (hp : s.tPhase = .sel) (hb : s.busy = false) :
    takeTurn .sequencer s =
      .next { s with cs := true, tPhase := .cmd, wires := { s.wires with access := some (.wrote .spiCs 1) } } := by
  simp only [takeTurn, sequencerTurn, hp]
  exact (thenPhase_next _ _ _).mpr ⟨_, (csWrite_next _ s _).mpr ⟨hb, rfl⟩, rfl⟩

/-- Phase `T_CMD` writes the read frame of the latched address (R173). -/
theorem takeTurn_sequencer_cmd (hp : s.tPhase = .cmd) (hb : s.busy = false) :
    takeTurn .sequencer s = .next { s with
      mosi := outWord s.tAddr, tPhase := .go,
      wires := { s.wires with access := some (.wrote .spiMosi ((outWord s.tAddr).setWidth 64)) } } := by
  have hw : ((outWord s.tAddr).setWidth 64).setWidth 40 = outWord s.tAddr := by simp
  simp only [takeTurn, sequencerTurn, hp]
  exact (thenPhase_next _ _ _).mpr ⟨_, (mosiWrite_next _ s _).mpr ⟨hb, rfl⟩, by rw [hw]; rfl⟩

/-- Phase `T_GO` starts a selected transfer of forty bits (R174). -/
theorem takeTurn_sequencer_go (hp : s.tPhase = .go) (hb : s.busy = false) (hc : s.cs = true) :
    takeTurn .sequencer s = .next { s with
      ctrlLength := 40, txsr := s.mosi, bitcnt := 40, busy := true, done := false, tOrd := s.tOrd + 1,
      tPhase := .poll, wires := { s.wires with access := some (.wrote .spiCtrl 0x2801) } } := by
  have hlen : ctrlLen goWord = 40 := by decide
  have hword : goWord = 0x2801 := by decide
  have htxsr : s.mosi <<< (40 - (40 : Byte).toNat) = s.mosi := BitVec.shiftLeft_zero _
  simp only [takeTurn, sequencerTurn, hp]
  refine (thenPhase_next _ _ _).mpr ⟨_, (ctrlWrite_next _ s _).mpr
    ⟨hb, .inr ⟨by decide, by decide, by decide, hc, rfl⟩⟩, ?_⟩
  rw [hlen, hword, startTransfer, htxsr]
  rfl

theorem takeTurn_sequencer_poll (hp : s.tPhase = .poll) : takeTurn .sequencer s = .next (pollStep s) := by
  simp only [takeTurn, sequencerTurn, hp]

theorem takeTurn_sequencer_resp (hp : s.tPhase = .resp) : takeTurn .sequencer s = .next (respStep s) := by
  simp only [takeTurn, sequencerTurn, hp]

end Sequencer

/-- Settles O19: the invariant has `BUSY` = 0 in the three phases and `CS` = 1 in `T_GO`, so no write is refused. -/
theorem sequencerWritesInOrder : Obligations.SequencerWritesInOrder := by
  intro s h
  refine ⟨fun hp => ?sel, ?cmd, fun hp => ?go⟩
  case sel => exact takeTurn_sequencer_sel hp (h.earlyAtRest (.inl hp))
  case cmd =>
    rintro hp _ rfl
    exact takeTurn_sequencer_cmd hp (h.earlyAtRest (.inr (.inl hp)))
  case go => exact takeTurn_sequencer_go hp (h.earlyAtRest (.inr (.inr hp))) (h.selected (.inr (.inl hp)))

/-- Settles O1: the command is accepted exactly when `cmd_ready` = 1, which it is in `T_IDLE` only. -/
theorem readByteAcceptedOrIgnored : Obligations.ReadByteAcceptedOrIgnored := by
  intro a s
  rw [← cmdReady_iff, Bool.not_eq_true]
  exact ⟨fun hr => ⟨_, execReadByte_of_ready hr a, rfl, cmdReady_of_not_idle (by simp)⟩,
    fun hr => execReadByte_of_not_ready hr a, cmdReady_of_not_idle⟩

/-- Settles O20: a poll that does not see `DONE` reads the status and no more, and one that sees it moves on. -/
theorem pollLeavesOnlyOnDone : Obligations.PollLeavesOnlyOnDone := by
  intro s hp
  rw [takeTurn_sequencer_poll hp]
  cases hd : s.done with
  | false => simp [pollStep_more s hp hd, regRead, readValue, statusValue, State.shows, hd, hp]
  | true => simp [pollStep_last s hd, regRead, readValue, statusValue, State.shows, hd]

/-- Settles O21: the response phase of a loader that does not wait. -/
theorem responseDeliveredToHost : Obligations.ResponseDeliveredToHost := fun s hp hl =>
  (takeTurn_sequencer_resp hp).trans (congrArg _ (respStep_host s hl))

/-! ### No turn stops the machine (R131, R172 to R174, R240) -/

/-- In every phase the sequencer has an answer (R172 to R176). -/
theorem ControlInv.sequencer_answers {s : State} (h : ControlInv s) : ∃ t, takeTurn .sequencer s = .next t := by
  obtain ⟨hsel, hcmd, hgo⟩ := sequencerWritesInOrder s h
  cases hp : s.tPhase
  case idle => exact ⟨s, by simp only [takeTurn, sequencerTurn, hp]⟩
  case sel => exact ⟨_, hsel hp⟩
  case cmd => exact ⟨_, hcmd hp _ rfl⟩
  case go => exact ⟨_, hgo hp⟩
  case poll => exact ⟨_, takeTurn_sequencer_poll hp⟩
  case resp => exact ⟨_, takeTurn_sequencer_resp hp⟩

/-- In `B_LOADED` the IP is not written yet, so neither write of the publication is refused (R224 to R227). -/
theorem HostInv.bootPublish_answers {s : State} (h : HostInv s) (hl : s.bState = .loaded) :
    ∃ t, bootPublish s = .next t := by
  have hip : s.idIp = none := by
    by_contra hne
    have hpub := h.ipPublishes.mp hne
    simp [hasPublished, hl] at hpub
  unfold bootPublish
  by_cases hm : s.idMac = none
  · exact ⟨_, (if_pos hm).trans ((idMacWrite_next _ s _).mpr ⟨hm, hl, rfl⟩)⟩
  · exact ⟨_, (if_neg hm).trans ((idIpWrite_next _ s _).mpr ⟨hip, hl, hm, rfl⟩)⟩

/-- In every state of the host its turn has an answer (R220 to R229). -/
theorem HostInv.boot_answers {s : State} (h : HostInv s) : ∃ t, takeTurn .boot s = .next t := by
  simp only [takeTurn, bootTurn]
  split
  case isFalse => exact ⟨s, rfl⟩
  case isTrue =>
    unfold bootMove
    cases hb : s.bState
    case loaded => exact h.bootPublish_answers hb
    all_goals exact ⟨_, rfl⟩

/-- Settles O53: of the five agents only the sequencer and the host perform writes that can be refused. -/
theorem noTurnStops : Obligations.NoTurnStops := by
  intro s u hc hh
  cases u
  case boot => exact hh.boot_answers
  case sequencer => exact hc.sequencer_answers
  case loader =>
    simp only [takeTurn, loaderTurn]
    split <;> exact ⟨_, rfl⟩
  case transfer =>
    simp only [takeTurn, transferTurn]
    split
    · exact ⟨_, rfl⟩
    · split <;> exact ⟨_, rfl⟩
  case reset => exact ⟨_, rfl⟩

/-! ### The hang (R178, R241) -/

/-- In the hang only a frame at the wire, a bit period and a poll do anything: no command runs but this one, the host
is not entitled, and the completion is not enabled. -/
theorem Hung.move_cases {e : Event} {s t : State} (h : Hung s) (m : Move e s t) (he : e ≠ .turn .reset) :
    t = s ∨ (∃ w, t = deviceFrame w s) ∨ t = shiftStep s ∨ t = regRead .spiStatus s := by
  obtain ⟨hp, hb, hd, hr⟩ := h
  have hready : cmdReady s ≠ true := by simp [cmdReady, hp]
  have hent : hostEntitled s ≠ true := by simp [hostEntitled, hp]
  have hfree : hostFree s ≠ true := fun hf => hent ((hostFree_iff s).mp hf).1
  cases m
  case ignored | rest => exact .inl rfl
  case device w => exact .inr (.inl ⟨w, rfl⟩)
  case shift => exact .inr (.inr (.inl rfl))
  case txnPoll => exact .inr (.inr (.inr (pollStep_more s hp hd)))
  case reset => exact absurd rfl he
  case complete hc => simp [((completeEnabled_iff s).mp hc).2.2] at hr
  case readByte | loadIdentity => exact absurd ‹_› hready
  case hostCs | hostMosi | hostLength | hostStart | hostSees | hostMac | hostIp => exact absurd ‹_› hent
  case bootInterrupts | bootConsole | bootLoad | bootMac | bootIp | bootMemory | bootIdle => exact absurd ‹_› hfree
  case request hi => simp [hp] at hi
  case txnSel hq _ | txnCmd hq _ | txnGo hq _ _ | txnResp hq => simp [hp] at hq

/-- Settles O54: none of the four things that can happen in the hang touches what it is made of, or shows a response. -/
theorem hangIsForever : Obligations.HangIsForever := by
  intro s t h he hs
  have hadv : Hung s.advance := h
  obtain rfl | ⟨w, rfl⟩ | rfl | rfl := hadv.move_cases (step_move s t hs) he <;>
    exact ⟨h, rfl, rfl, rfl, rfl, rfl⟩

end Sys2Proof.Machine

/-! ### What is delivered is the flash's (R148, R177, R197, R205) -/

namespace Sys2Proof.Machine

open Sys2Proof

/-- The number of one more byte has that byte below the number of the bytes before (R10). -/
theorem bigEndian_succ_eq_append {w v : Nat} {f : Nat → Byte} {n : Nat} {x : BitVec v}
    (hx : bigEndian w f n = x.setWidth w) : bigEndian w f (n + 1) = (x ++ f n).setWidth w := by
  apply BitVec.eq_of_getLsbD_eq
  intro j hj
  rw [bigEndian, hx, BitVec.getLsbD_or, BitVec.getLsbD_shiftLeft, BitVec.getLsbD_setWidth, BitVec.getLsbD_setWidth,
    BitVec.getLsbD_setWidth, BitVec.getLsbD_append]
  by_cases h8 : j < 8
  · simp [h8, hj]
  · simp [h8, hj, show j - 8 < w by omega, BitVec.getLsbD_of_ge (f n) j (by omega)]

/-- The number of the record's first four bytes is its IP (R67). -/
theorem bigEndian_recordIp (s : State) : bigEndian 32 (recordByte s) 4 = recordIp s := by
  have hone : bigEndian 32 (recordByte s) 1 = (recordByte s 0).setWidth 32 := by simp [bigEndian]
  have hfour := bigEndian_succ_eq_append (bigEndian_succ_eq_append (bigEndian_succ_eq_append hone))
  rwa [BitVec.setWidth_eq] at hfour

/-- The number of its last six bytes is its MAC (R67, R99). -/
theorem bigEndian_recordMac (s : State) : bigEndian 64 (fun i => recordByte s (i + 4)) 6 = recordMac s := by
  have hnone : bigEndian 64 (fun i => recordByte s (i + 4)) 0 = (0 : BitVec 16).setWidth 64 := rfl
  have hthree := bigEndian_succ_eq_append (bigEndian_succ_eq_append (bigEndian_succ_eq_append hnone))
  have hsix := bigEndian_succ_eq_append (bigEndian_succ_eq_append (bigEndian_succ_eq_append hthree))
  rwa [BitVec.setWidth_eq] at hsix

/-- With the load done the accumulators hold the record's identity (R197, R199). -/
theorem DataInv.identity_of_done {s : State} (h : DataInv s) (hl : s.lPhase = .done) (hi : s.lIdx = 10) :
    s.ipAcc = recordIp s ∧ s.macAcc = recordMac s := by
  have hn : s.lPhase ≠ .idle := by simp [hl]
  constructor
  · simpa [hi, bigEndian_recordIp] using h.ip hn (by simp [hi])
  · simpa [hi, bigEndian_recordMac] using h.mac hn (by simp [hi])

/-- A byte delivered in `T_RESP` is the addressed one, and it is latched (R148, R177). -/
theorem respStep_delivers_byte {s : State} (h : DataInv s) (hc : ControlInv s) (hp : s.tPhase = .resp)
    (hl : s.lPhase ≠ .wait) :
    (respStep s).wires.rsp = some (.byte (flashAt s s.tAddr)) ∧ (respStep s).tData = flashAt s s.tAddr := by
  have hbyte := h.received (.inr hp) (hc.complete hp).1
  rw [respStep_host s hl, ← hbyte]
  exact ⟨rfl, rfl⟩

/-- An identity delivered in `T_RESP` is the record's, and it is left in the accumulators (R197, R205). -/
theorem respStep_delivers_identity {s : State} (h : DataInv s) (hc : ControlInv s) (hp : s.tPhase = .resp)
    (hl : s.lPhase = .wait) (hi : s.lIdx = 9) :
    (respStep s).wires.rsp = some (.identity (recordIp s) (recordMac s)) ∧ (respStep s).ipAcc = recordIp s ∧
      (respStep s).macAcc = recordMac s := by
  have hinv := h.respStep hc hp
  rw [respStep_last s hl hi] at hinv ⊢
  obtain ⟨hip, hmac⟩ := hinv.identity_of_done rfl rfl
  refine ⟨?_, hip, hmac⟩
  exact congrArg some (congrArg₂ Response.identity hip hmac)

/-- Settles O44: of the moves only the response phase shows a response, and it shows the flash's. -/
theorem deliveredIsFromFlash : Obligations.DeliveredIsFromFlash := by
  intro s t hc hd hs
  obtain ⟨-, hp, rfl⟩ | hnone := (step_move s t hs).rsp_cases rfl
  case inr => simp [hnone]
  replace hc := hc.advance
  replace hd := hd.advance
  constructor
  · intro b hb
    obtain ⟨-, hl⟩ | ⟨⟨_, _, hr⟩, -⟩ := respStep_rsp_cases (s := s.advance) rfl hb
    · obtain ⟨hrsp, hdata⟩ := respStep_delivers_byte hd hc hp hl
      obtain rfl : flashAt s.advance s.advance.tAddr = b := by simpa [hrsp] using hb
      exact ⟨rfl, hdata⟩
    · cases hr
  · intro ip mac hid
    obtain ⟨⟨_, hr⟩, -⟩ | ⟨-, hl, hi⟩ := respStep_rsp_cases (s := s.advance) rfl hid
    · cases hr
    · obtain ⟨hrsp, hip, hmac⟩ := respStep_delivers_identity hd hc hp hl hi
      obtain ⟨rfl, rfl⟩ : recordIp s.advance = ip ∧ recordMac s.advance = mac := by simpa [hrsp] using hid
      exact ⟨rfl, rfl, hip, hmac⟩

end Sys2Proof.Machine

/-! ### A read transaction with polls anywhere among its bit periods (R147, R175, R177, R179)

The transaction is the same for the host and for the loader, and neither the phases nor the transfer agent look at the
loader before `T_RESP`. So the invariants are used of the state with the loader in `L_IDLE`, which asks nothing of the
loader's registers. -/

namespace Sys2Proof.Machine

open Sys2Proof

/-- The state with the loader in `L_IDLE`. -/
def State.withLoaderIdle (s : State) : State := { s with lPhase := .idle }

/-- The sequencer polls an answered transfer of the read frame of `T_ADDR`: the invariants give the frame, its length
and the bits received so far. -/
structure Reading (s : State) : Prop where
  phase : s.tPhase = .poll
  answered : Answered s
  control : ControlInv s.withLoaderIdle
  data : DataInv s.withLoaderIdle

/-- What the three writing phases leave: the transfer of the read frame of `T_ADDR` started, the last write shown (R172
to R174). -/
def readStarted (rest : List Event) (s : State) : State :=
  { s with
    cs := true, mosi := outWord s.tAddr, ctrlLength := 40, txsr := outWord s.tAddr, bitcnt := 40, busy := true,
    done := false, tOrd := s.tOrd + 1, tPhase := .poll, agenda := rest,
    wires := { Wires.quiet with access := some (.wrote .spiCtrl 0x2801) } }

section Reading

variable {s : State}

/-- With a device that will answer the transfer, the sequencer's start begins to read (R174). -/
theorem reading_readStarted (hr : flashResponds s s.tOrd = true) (rest : List Event) :
    Reading (readStarted rest s) where
  phase := rfl
  answered := ⟨rfl, hr⟩
  control := by constructor <;> simp [State.withLoaderIdle, readStarted]
  data := by constructor <;> simp [State.withLoaderIdle, readStarted]

/-- `Reading` does not see the start of a step, which takes the event and quiets the wires. -/
theorem Reading.advance (h : Reading s) : Reading s.advance :=
  ⟨h.phase, h.answered, h.control.advance, h.data.advance⟩

theorem Reading.done_eq_false (h : Reading s) : s.done = false := h.control.busyNotDone h.answered.1

/-- A poll is a status read: the transfer goes on (R175). -/
theorem Reading.poll (h : Reading s) : Reading (regRead .spiStatus s) :=
  ⟨h.phase, h.answered, { h.control with }, { h.data with }⟩

/-- A bit period takes in the device's next bit and does not end the transfer (R143). -/
theorem Reading.shift (h : Reading s) (hn : s.bitcnt ≠ 0) : Reading (shiftStep s) := by
  have he : shiftEnabled s.withLoaderIdle = true := (shiftEnabled_iff _).mpr ⟨h.answered.1, hn⟩
  exact ⟨h.phase, h.answered, h.control.shiftStep he, h.data.shiftStep h.control he⟩

theorem Reading.can_complete (h : Reading s) (hn : s.bitcnt = 0) : completeEnabled s = true :=
  (completeEnabled_iff s).mpr ⟨h.answered.1, hn, h.answered.2⟩

/-- With no bit left the addressed byte is in the low byte of `MISO` (R148). -/
theorem Reading.respByte_eq (h : Reading s) (hn : s.bitcnt = 0) : respByte s.miso = flashAt s s.tAddr :=
  (h.data.completeStep h.control (h.can_complete hn)).received (.inl h.phase) rfl

theorem Reading.txsr_eq_zero (h : Reading s) (hn : s.bitcnt = 0) : s.txsr = 0 :=
  h.control.txsr_eq_zero h.answered.1 hn

/-- One turn of a running transaction: a poll that leaves the bits to go, or a bit period that takes one off. -/
theorem Reading.turn_cases (h : Reading s) {u : Turn} {us : List Turn}
    (hu : u = .sequencer ∨ u = .transfer) (hn : s.bitcnt.toNat = (u :: us).count .transfer) :
    ∃ t, takeTurn u s = .next t ∧ Reading t ∧ t.bitcnt.toNat = us.count .transfer ∧
      t = { s with txsr := t.txsr, miso := t.miso, bitcnt := t.bitcnt, drawIdx := t.drawIdx, wires := t.wires } := by
  obtain rfl | rfl := hu
  · refine ⟨regRead .spiStatus s, ?_, h.poll, by simpa [regRead] using hn, rfl⟩
    rw [takeTurn_sequencer_poll h.phase, pollStep_more s h.phase h.done_eq_false]
  · rw [List.count_cons_self] at hn
    have hne : s.bitcnt ≠ 0 := fun h0 => by simp [h0] at hn
    have he : shiftEnabled s = true := (shiftEnabled_iff s).mpr ⟨h.answered.1, hne⟩
    have hcnt := shiftStep_bitcnt_toNat hne
    exact ⟨shiftStep s, takeTurn_transfer_shift he, h.shift hne, by omega, rfl⟩

/-- The bit periods that are left, with any polls among them (R147, R175). -/
theorem Reading.run_turns {us : List Turn} {rest : List Event} (h : Reading s)
    (hus : ∀ u ∈ us, u = .sequencer ∨ u = .transfer) (hn : s.bitcnt.toNat = us.count .transfer)
    (ha : s.agenda = turns us ++ rest) :
    ∃ t, run us.length s = .next t ∧ Reading t ∧
      t = { s with
        txsr := t.txsr, miso := t.miso, bitcnt := 0, agenda := rest, tick := t.tick, drawIdx := t.drawIdx,
        wires := t.wires } := by
  induction us generalizing s with
  | nil =>
    have hzero : s.bitcnt = 0 := BitVec.eq_of_toNat_eq hn
    have hrest : s.agenda = rest := ha
    exact ⟨s, rfl, h, by rw [← hzero, ← hrest]⟩
  | cons u us ih =>
    obtain ⟨hu, hus⟩ := List.forall_mem_cons.mp hus
    obtain ⟨v, hv, hread, hcnt, hframe⟩ := h.advance.turn_cases hu hn
    have hstep : step s = .next v := by rw [step_eq_takeTurn (by rw [nextEvent, ha]; rfl), hv]
    have hagenda : v.agenda = turns us ++ rest := by
      rw [hframe]
      exact congrArg List.tail ha
    obtain ⟨t, hrun, hread, hframe'⟩ := ih hread hus hcnt hagenda
    refine ⟨t, (run_succ _ s v hstep).trans hrun, hread, ?_⟩
    rw [hframe', hframe]
    rfl

end Reading

/-! The transaction from `T_SEL` to `T_RESP`, in its three parts. -/

/-- A run whose first event is a turn goes on from what the turn leaves. -/
theorem run_turn {s t : State} {u : Turn} {rest : List Event} (n : Nat) (ha : s.agenda = .turn u :: rest)
    (h : takeTurn u { s with wires := .quiet, agenda := rest } = .next t) : run (n + 1) s = run n t :=
  run_succ n s t ((step_turn s u rest ha).trans h)

section Transaction

variable {s : State} {rest : List Event}

/-- The three writing phases in a row (R172 to R174). -/
theorem run_writes (hp : s.tPhase = .sel) (hb : s.busy = false)
    (ha : s.agenda = turns [.sequencer, .sequencer, .sequencer] ++ rest) :
    run 3 s = .next (readStarted rest s) :=
  Eq.trans (run_turn 2 ha (takeTurn_sequencer_sel hp hb)) (Eq.trans
    (run_turn 1 rfl (takeTurn_sequencer_cmd rfl hb)) (run_turn 0 rfl (takeTurn_sequencer_go rfl hb rfl)))

/-- After the last bit the transfer completes, and the next poll sees it (R145, R175). -/
theorem Reading.run_finish (h : Reading s) (hn : s.bitcnt = 0)
    (ha : s.agenda = turns [.transfer, .sequencer] ++ rest) :
    ∃ t, run 2 s = .next t ∧
      t = { s with busy := false, done := true, tPhase := .resp, agenda := rest, wires := t.wires } := by
  refine ⟨_, Eq.trans (run_turn 1 ha (takeTurn_transfer_complete (h.can_complete hn)))
    (run_turn 0 rfl (takeTurn_sequencer_poll h.phase)), ?_⟩
  rw [pollStep_last _ rfl]
  rfl

/-- A transaction from `T_SEL` to `T_RESP` receives the addressed byte, whoever asked for it (R172 to R175, R179). -/
theorem run_transaction {us : List Turn} (hp : s.tPhase = .sel) (hb : s.busy = false)
    (hr : flashResponds s s.tOrd = true) (hus : ∀ u ∈ us, u = .sequencer ∨ u = .transfer)
    (hn : us.count .transfer = 40)
    (ha : s.agenda =
      turns [.sequencer, .sequencer, .sequencer] ++ (turns us ++ (turns [.transfer, .sequencer] ++ rest))) :
    ∃ t, run (3 + us.length + 2) s = .next t ∧ respByte t.miso = flashAt s s.tAddr ∧
      t = { s with
        cs := true, mosi := outWord s.tAddr, ctrlLength := 40, txsr := 0, bitcnt := 0, miso := t.miso, busy := false,
        done := true, tOrd := s.tOrd + 1, tPhase := .resp, agenda := rest, tick := t.tick, drawIdx := t.drawIdx,
        wires := t.wires } := by
  have hwrites := run_writes hp hb ha
  obtain ⟨w, hturns, hread, hw⟩ := (reading_readStarted hr _).run_turns hus hn.symm rfl
  have hzero : w.bitcnt = 0 := by rw [hw]
  obtain ⟨t, hfinish, ht⟩ := hread.run_finish hzero (by rw [hw])
  have hbyte := hread.respByte_eq hzero
  have htxsr := hread.txsr_eq_zero hzero
  have hrun : run (3 + us.length) s = .next w := (run_add 3 _ s _ hwrites).trans hturns
  refine ⟨t, (run_add _ 2 s w hrun).trans hfinish, ?_, ?_⟩
  · rw [ht, hbyte, hw]
    rfl
  · rw [ht, htxsr, hw]
    rfl

/-- The response phase of a transaction of the host (R176). -/
theorem run_response (hp : s.tPhase = .resp) (hl : s.lPhase ≠ .wait) (ha : s.agenda = turns [.sequencer] ++ rest) :
    ∃ t, run 1 s = .next t ∧ t.wires.rsp = some (.byte (respByte s.miso)) ∧
      t = { s with tData := respByte s.miso, tPhase := .idle, agenda := rest, wires := t.wires } := by
  refine ⟨_, run_turn 0 ha (takeTurn_sequencer_resp hp), ?_⟩
  rw [respStep_host]
  · exact ⟨rfl, rfl⟩
  · exact hl

/-- A `READ_BYTE` presented by a host with steps to take to a ready block is accepted (R171). -/
theorem step_readByte {a : FlashAddr} (hfree : hostAtRest s = false) (hready : cmdReady s = true)
    (hq : nextEvent s = .request (encode (.readByte a))) : step s = .next (acceptRead a s.advance) := by
  have hdec : fetched s (encode (.readByte a)) = .ok (.readByte a) := decodeEncodeAgree (.readByte a) rfl
  rw [(stepRunsDecoded s s.advance _ _ hq hdec rfl).1 (.inl hfree), execReadByte_of_ready (s := s.advance) hready]

end Transaction

/-- Settles O57: the acceptance, the transaction, and the response to the host. -/
theorem readByteReturnsFlash : Obligations.ReadByteReturnsFlash := by
  intro s a us rest hfree hready hr hus hn ha
  obtain ⟨-, hquiet, hb⟩ := (cmdReady_iff s).mp hready
  have haccept := step_readByte hfree hready (by rw [nextEvent, ha]; rfl)
  obtain ⟨u, hrun, hbyte, hu⟩ := run_transaction (rest := turns [.sequencer] ++ rest) (s := acceptRead a s.advance)
    rfl hb hr hus hn (by simp [turns, ha])
  have hwait : u.lPhase ≠ .wait := by
    rw [hu]
    exact (not_req_not_wait_of_quiet hquiet).2
  obtain ⟨t, hresponse, hrsp, ht⟩ := run_response (rest := rest) (by rw [hu]) hwait (by rw [hu])
  replace hbyte : respByte u.miso = flashAt s a := hbyte
  rw [hbyte] at hrsp ht
  have hwhole : run (1 + (3 + us.length + 3)) s = .next t :=
    (run_add 1 _ s _ (run_succ 0 s _ haccept)).trans ((run_add _ 1 _ u hrun).trans hresponse)
  refine ⟨t, hwhole, by rw [ht], hrsp, ?_⟩
  rw [ht, hu]
  exact ⟨rfl, rfl, rfl, rfl, rfl, rfl, rfl, hbyte, rfl, rfl, rfl, rfl, rfl, rfl, rfl, rfl, rfl, rfl, rfl, rfl⟩

end Sys2Proof.Machine

/-! ### The loader: acceptance, request, consumption (R190 to R196) -/

namespace Sys2Proof.Machine

open Sys2Proof

section Loader

variable {s : State}

theorem execLoadIdentity_of_ready (hr : cmdReady s = true) (hl : s.lPhase = .idle) :
    exec .loadIdentity s = .next (acceptLoad s) :=
  if_pos ⟨hr, hl⟩

theorem execLoadIdentity_ignored (h : ¬ (cmdReady s = true ∧ s.lPhase = .idle)) : exec .loadIdentity s = .next s :=
  if_neg h

/-- While the load runs the block is not ready (R191). -/
theorem cmdReady_of_loading (h : s.lPhase = .req ∨ s.lPhase = .wait) : cmdReady s = false := by
  rw [← Bool.not_eq_true, cmdReady_iff]
  rintro ⟨-, hq, -⟩
  obtain ⟨hreq, hwait⟩ := not_req_not_wait_of_quiet hq
  exact h.elim hreq hwait

/-- The loader hands its pointer to the idle sequencer (R192). -/
theorem takeTurn_loader_request (hl : s.lPhase = .req) (hp : s.tPhase = .idle) :
    takeTurn .loader s = .next (requestByte s) :=
  if_pos ⟨hl, hp⟩

/-- Outside `L_REQ` the loader has no step of its own (R192, R193). -/
theorem takeTurn_loader_rest (hl : s.lPhase ≠ .req) : takeTurn .loader s = .next s :=
  if_neg fun h => hl h.1

end Loader

/-- The IP accumulator takes a byte of index 0 to 3: the first replaces it, the others go below (R193, R195). -/
theorem ipAcc_after (acc : BitVec 32) (i : BitVec 4) (b : Byte) :
    (if i.toNat < 4 then ipNext acc i b else acc) =
      if i = 0 then b.setWidth 32 else if i.toNat ≤ 3 then (acc <<< 8) ||| b.setWidth 32 else acc := by
  simp only [ipNext, Nat.lt_succ_iff]
  by_cases hi : i = 0
  · simp [hi]
  · simp only [if_neg hi]

/-- The MAC accumulator takes a byte of index 4 and above: the fifth replaces it, the others go below (R193, R196). -/
theorem macAcc_after (acc : BitVec 64) (i : BitVec 4) (b : Byte) :
    (if i.toNat < 4 then acc else macNext acc i b) =
      if i.toNat ≤ 3 then acc else if i = 4 then b.setWidth 64 else (acc <<< 8) ||| b.setWidth 64 := by
  simp only [macNext, Nat.lt_succ_iff]

/-- Settles O2: the load is accepted exactly when the block is ready and has not loaded, and no block is ready while a
load runs. -/
theorem loadIdentityAcceptedOnce : Obligations.LoadIdentityAcceptedOnce := by
  intro s
  have hready : s.tPhase = .idle ∧ s.lPhase = .idle ∧ s.busy = false ↔ cmdReady s = true ∧ s.lPhase = .idle := by
    rw [cmdReady_iff]
    tauto
  rw [hready]
  exact ⟨fun ⟨hr, hl⟩ => execLoadIdentity_of_ready hr hl, execLoadIdentity_ignored, cmdReady_of_loading⟩

/-- Settles O24: by the invariant a requesting loader finds the sequencer idle, and its index is not the final one. -/
theorem loaderRequestsAtPointer : Obligations.LoaderRequestsAtPointer := by
  intro s h hl
  obtain ⟨hp, -⟩ := h.requesting hl
  obtain ⟨-, hle, hten⟩ := h.pointer (by simp [hl])
  have hne : s.lIdx ≠ 10 := mt hten.mp (by simp [hl])
  exact ⟨hp, by bv_omega, takeTurn_loader_request hl hp⟩

/-- Settles O22: the response phase of a waiting loader, for a byte that is not the last and for the last. -/
theorem loaderConsumesByte : Obligations.LoaderConsumesByte := by
  rintro s b hl rfl
  refine ⟨fun hp hlt => ?more, ?last, takeTurn_loader_rest (by simp [hl])⟩
  case more =>
    have hi : s.lIdx ≠ 9 := by bv_omega
    rw [takeTurn_sequencer_resp hp, respStep_more s hl hi, ipAcc_after, macAcc_after]
    rfl
  case last =>
    rintro hp hi mac rfl
    rw [takeTurn_sequencer_resp hp, respStep_last s hl hi]
    exact ⟨_, rfl, rfl, rfl, fun hb => if_pos hb⟩

end Sys2Proof.Machine

/-! ### The accumulation rules on single bytes (R195, R196, R67) -/

namespace Sys2Proof.Machine

open Sys2Proof

/-- A byte shifted in goes below the number before it (R10). -/
theorem shiftLeft_or_eq_append {w v : Nat} (x : BitVec v) (b : Byte) :
    (x.setWidth w <<< 8) ||| b.setWidth w = (x ++ b).setWidth w := by
  apply BitVec.eq_of_getLsbD_eq
  intro j hj
  by_cases h8 : j < 8
  · simp [BitVec.getLsbD_append, h8, hj]
  · simp [BitVec.getLsbD_append, h8, hj, BitVec.getLsbD_of_ge b j (by omega)]

theorem ipNext_append {v : Nat} (x : BitVec v) {i : BitVec 4} (hi : i ≠ 0) (b : Byte) :
    ipNext (x.setWidth 32) i b = (x ++ b).setWidth 32 :=
  (if_neg hi).trans (shiftLeft_or_eq_append x b)

theorem macNext_append {v : Nat} (x : BitVec v) {i : BitVec 4} (hi : i ≠ 4) (b : Byte) :
    macNext (x.setWidth 64) i b = (x ++ b).setWidth 64 :=
  (if_neg hi).trans (shiftLeft_or_eq_append x b)

/-- Settles O37: the first byte of a field replaces the accumulator, and each later one goes below the bytes before. -/
theorem accumulationIsBigEndian : Obligations.AccumulationIsBigEndian := by
  constructor
  · intro acc b0 b1 b2 b3
    have hfirst : ipNext acc 0 b0 = b0.setWidth 32 := rfl
    rw [hfirst, ipNext_append _ (by decide), ipNext_append _ (by decide), ipNext_append _ (by decide)]
    exact BitVec.setWidth_eq _
  · intro acc b4 b5 b6 b7 b8 b9
    have hfirst : macNext acc 4 b4 = ((0 : BitVec 16) ++ b4).setWidth 64 := by
      simpa [macNext] using shiftLeft_or_eq_append (w := 64) (0 : BitVec 16) b4
    rw [hfirst, macNext_append _ (by decide), macNext_append _ (by decide), macNext_append _ (by decide),
      macNext_append _ (by decide), macNext_append _ (by decide)]
    exact BitVec.setWidth_eq _

end Sys2Proof.Machine

/-! ### The load, transaction by transaction (R192 to R194, R197, R204, R205) -/

namespace Sys2Proof.Machine

open Sys2Proof

/-- Between two transactions of a load the loader asks for the byte of its index, and the accumulators hold the record's
bytes before it (R192, R199). -/
structure Requesting (s : State) : Prop where
  phase : s.lPhase = .req
  idle : s.tPhase = .idle
  rest : s.busy = false
  pointer : s.lPtr = s.params.cfgBase + s.lIdx.setWidth 24
  index : s.lIdx.toNat ≤ 9
  data : DataInv s

/-- At the end of a transaction of a load the byte is in and the loader waits for it (R193). -/
structure Receiving (s : State) : Prop where
  phase : s.tPhase = .resp
  waiting : s.lPhase = .wait
  control : ControlInv s
  data : DataInv s

/-- A run of `n` transactions has left `rest` to come, counted the transactions, and touched neither the flash nor the
parameters (R62, R174). -/
structure Transacted (n : Nat) (rest : List Event) (s t : State) : Prop where
  agenda : t.agenda = rest
  ordinal : t.tOrd = s.tOrd + n
  flash : t.flash = s.flash
  params : t.params = s.params

theorem Transacted.trans {m n : Nat} {es rest : List Event} {s u t : State} (h : Transacted m es s u)
    (h' : Transacted n rest u t) : Transacted (m + n) rest s t :=
  ⟨h'.agenda, by rw [h'.ordinal, h.ordinal, Nat.add_assoc], h'.flash.trans h.flash, h'.params.trans h.params⟩

/-- The response phase touches none of it (R176). -/
theorem Transacted.respStep {n : Nat} {rest : List Event} {s t : State} (h : Transacted n rest s t) :
    Transacted n rest s (respStep t) := by
  rw [respStep_frame]
  exact ⟨h.agenda, h.ordinal, h.flash, h.params⟩

theorem recordByte_congr {s t : State} (hf : t.flash = s.flash) (hp : t.params = s.params) :
    recordByte t = recordByte s := by
  funext i
  rw [recordByte, flashAt_congr hf, hp, recordByte]

/-- The record is the flash's at the base, and neither has changed (R62, R64). -/
theorem Transacted.record {n : Nat} {rest : List Event} {s t : State} (h : Transacted n rest s t) :
    recordIp t = recordIp s ∧ recordMac t = recordMac s := by
  simp only [recordIp, recordMac, recordByte_congr h.flash h.params, and_self]

theorem flashResponds_congr {s t : State} (hp : t.params = s.params) : flashResponds t = flashResponds s := by
  funext n
  rw [flashResponds, hp, flashResponds]

section Load

variable {s : State}

/-- An accepted load starts with no byte taken and the pointer at the base (R191). -/
theorem requesting_acceptLoad (hready : cmdReady s = true) : Requesting (acceptLoad s) := by
  obtain ⟨hp, -, hb⟩ := (cmdReady_iff s).mp hready
  exact {
    phase := rfl
    idle := hp
    rest := hb
    pointer := by simp
    index := by simp
    data := { shifting := by simp [hp], received := by simp [hp], ip := by simp, mac := by simp } }

/-- A byte that is not the last brings the loader to its next request (R193). -/
theorem Receiving.requesting_respStep (h : Receiving s) (hi : s.lIdx ≠ 9) :
    Requesting (respStep s) ∧ (respStep s).lIdx.toNat = s.lIdx.toNat + 1 := by
  have hlt := h.control.index_lt_ten h.waiting
  have hdata := h.data.respStep h.control h.phase
  have hptr := h.control.pointer_next h.waiting
  rw [respStep_more s h.waiting hi] at hdata ⊢
  have hnext : (s.lIdx + 1).toNat = s.lIdx.toNat + 1 := by bv_omega
  have hidx : (s.lIdx + 1).toNat ≤ 9 := by bv_omega
  exact ⟨⟨rfl, rfl, (h.control.complete h.phase).1, hptr, hidx, hdata⟩, hnext⟩

/-- `Receiving` does not see the start of a step, which takes the event and quiets the wires. -/
theorem Receiving.advance (h : Receiving s) : Receiving s.advance :=
  ⟨h.phase, h.waiting, h.control.advance, h.data.advance⟩

/-- A transaction of the loader runs to the response phase, with the byte asked for received (R172 to R175, R192). -/
theorem Requesting.run_receive (h : Requesting s) {us : List Turn} {rest : List Event}
    (hr : flashResponds s s.tOrd = true) (hus : ∀ u ∈ us, u = .sequencer ∨ u = .transfer)
    (hn : us.count .transfer = 40) (ha : s.agenda = turns (loaderTransaction us) ++ rest) :
    ∃ v, run (1 + (3 + us.length + 2)) s = .next v ∧ Receiving v ∧ v.lIdx = s.lIdx ∧
      Transacted 1 (turns [.sequencer] ++ rest) s v := by
  have hrequest : step s = .next (requestByte s.advance) := by
    rw [step_eq_takeTurn (u := .loader) (by rw [nextEvent, ha]; rfl)]
    exact takeTurn_loader_request h.phase h.idle
  obtain ⟨v, hrun, hbyte, hv⟩ := run_transaction (rest := turns [.sequencer] ++ rest) (s := requestByte s.advance)
    rfl h.rest hr hus hn (by simp [turns, loaderTransaction, ha])
  have hl : s.lPhase ≠ .idle := by simp [h.phase]
  have hten : s.lIdx ≠ 10 := fun hi => absurd h.index (by simp [hi])
  have hcontrol : ControlInv v := by
    rw [hv]
    constructor
    case pointer => exact fun _ => ⟨h.pointer, h.index.trans (by decide), iff_of_false hten (by simp)⟩
    all_goals simp
  have hdata : DataInv v := by
    rw [hv]
    exact {
      shifting := by simp
      received := fun _ _ => hbyte
      ip := fun _ => h.data.ip hl
      mac := fun _ => h.data.mac hl }
  obtain ⟨hphase, hwait, hidx⟩ : v.tPhase = .resp ∧ v.lPhase = .wait ∧ v.lIdx = s.lIdx := by
    rw [hv]
    exact ⟨rfl, rfl, rfl⟩
  have hothers : Transacted 1 (turns [.sequencer] ++ rest) s v := by
    rw [hv]
    exact ⟨rfl, rfl, rfl, rfl⟩
  have hwhole := (run_add 1 _ s _ (run_succ 0 s _ hrequest)).trans hrun
  exact ⟨v, hwhole, ⟨hphase, hwait, hcontrol, hdata⟩, hidx, hothers⟩

/-- One transaction of a load: it ends in the consumption of the byte asked for (R192, R193). -/
theorem Requesting.run_loaderTransaction (h : Requesting s) {us : List Turn} {rest : List Event}
    (hr : flashResponds s s.tOrd = true) (hus : ∀ u ∈ us, u = .sequencer ∨ u = .transfer)
    (hn : us.count .transfer = 40) (ha : s.agenda = turns (loaderTransaction us) ++ rest) :
    ∃ v, run (loaderTransaction us).length s = .next (respStep v) ∧ Receiving v ∧ v.lIdx = s.lIdx ∧
      Transacted 1 rest s v := by
  obtain ⟨v, hrun, hv, hidx, hagenda, hord, hflash, hparams⟩ := h.run_receive hr hus hn ha
  have hlast : step v = .next (respStep v.advance) := by
    rw [step_eq_takeTurn (u := .sequencer) (by rw [nextEvent, hagenda]; rfl)]
    exact takeTurn_sequencer_resp hv.phase
  have hlen : (loaderTransaction us).length = 1 + (3 + us.length + 2) + 1 := by
    simp only [loaderTransaction, List.length_append, List.length_cons, List.length_nil]
    omega
  rw [hlen, run_add _ 1 s v hrun, run_succ 0 v _ hlast]
  exact ⟨v.advance, rfl, hv.advance, hidx, congrArg List.tail hagenda, hord, hflash, hparams⟩

/-- The transactions that are left of a load: the last one receives the tenth byte (R193, R194, R204). -/
theorem Requesting.run_load {tss : List (List Turn)} {rest : List Event} (h : Requesting s)
    (hlen : s.lIdx.toNat + tss.length = 10) (hr : ∀ i < tss.length, flashResponds s (s.tOrd + i) = true)
    (hts : ∀ us ∈ tss, (∀ u ∈ us, u = .sequencer ∨ u = .transfer) ∧ us.count .transfer = 40)
    (ha : s.agenda = turns (tss.map loaderTransaction).flatten ++ rest) :
    ∃ v, run (tss.map loaderTransaction).flatten.length s = .next (respStep v) ∧ Receiving v ∧ v.lIdx = 9 ∧
      Transacted tss.length rest s v := by
  induction tss generalizing s with
  | nil =>
    have hle := h.index
    rw [List.length_nil] at hlen
    omega
  | cons us tss ih =>
    obtain ⟨⟨hus, hn⟩, hts⟩ := List.forall_mem_cons.mp hts
    rw [List.length_cons] at hlen hr
    obtain ⟨v, hrun, hv, hidx, hfirst⟩ :=
      h.run_loaderTransaction (rest := turns (tss.map loaderTransaction).flatten ++ rest) (hr 0 (by omega)) hus hn
        (by simp [ha, turns])
    rw [← hidx] at hlen
    rw [List.map_cons, List.flatten_cons, List.length_append, run_add _ _ s _ hrun]
    by_cases hi : v.lIdx = 9
    case pos =>
      have hnine : v.lIdx.toNat = 9 := by simp [hi]
      obtain rfl : tss = [] := List.eq_nil_of_length_eq_zero (by omega)
      exact ⟨v, rfl, hv, hi, hfirst⟩
    case neg =>
      obtain ⟨hreq, hnext⟩ := hv.requesting_respStep hi
      obtain ⟨hagenda, hord, -, hparams⟩ := hfirst.respStep
      have hresponds : ∀ i < tss.length, flashResponds (respStep v) ((respStep v).tOrd + i) = true := by
        intro i hlt
        rw [flashResponds_congr hparams, hord, Nat.add_assoc, Nat.add_comm 1]
        exact hr (i + 1) (by omega)
      obtain ⟨t, hrest, ht, hti, hothers⟩ := ih hreq (by omega) hresponds hts hagenda
      refine ⟨t, hrest, ht, hti, ?_⟩
      rw [List.length_cons, Nat.add_comm]
      exact hfirst.respStep.trans hothers

/-- A `LOAD_IDENTITY` presented by a host with steps to take to a ready block that has not loaded is accepted (R191). -/
theorem step_loadIdentity (hfree : hostAtRest s = false) (hready : cmdReady s = true) (hl : s.lPhase = .idle)
    (hq : nextEvent s = .request (encode .loadIdentity)) : step s = .next (acceptLoad s.advance) := by
  have hdec : fetched s (encode .loadIdentity) = .ok .loadIdentity := decodeEncodeAgree .loadIdentity rfl
  rw [(stepRunsDecoded s s.advance _ _ hq hdec rfl).1 (.inl hfree), execLoadIdentity_of_ready (s := s.advance) hready hl]

/-- The tenth byte ends the load: the record's identity is delivered and the block is ready again (R194, R197, R205). -/
theorem Receiving.loaded_respStep (h : Receiving s) (hi : s.lIdx = 9) :
    (respStep s).wires.rsp = some (.identity (recordIp s) (recordMac s)) ∧ (respStep s).ipAcc = recordIp s ∧
      (respStep s).macAcc = recordMac s ∧ (respStep s).lPhase = .done ∧ (respStep s).lIdx = 10 ∧
      (respStep s).lPtr = s.params.cfgBase + 10 ∧ (respStep s).tPhase = .idle ∧ cmdReady (respStep s) = true := by
  obtain ⟨hrsp, hip, hmac⟩ := respStep_delivers_identity h.data h.control h.phase h.waiting hi
  refine ⟨hrsp, hip, hmac, ?_⟩
  have hptr := h.control.pointer_next h.waiting
  rw [hi] at hptr
  have hb := (h.control.complete h.phase).1
  rw [respStep_last s h.waiting hi]
  exact ⟨rfl, rfl, hptr, rfl, (cmdReady_iff _).mpr ⟨rfl, .inr rfl, hb⟩⟩

end Load

/-- Settles O58: the acceptance, and the ten transactions, each of which takes one byte of the record. -/
theorem loadReturnsRecord : Obligations.LoadReturnsRecord := by
  intro s tss rest hfree hready hl hr hlen hts ha
  have haccept := step_loadIdentity hfree hready hl (by rw [nextEvent, ha]; rfl)
  rw [← hlen] at hr
  obtain ⟨v, hrun, hv, hi, hload⟩ := (requesting_acceptLoad (s := s.advance) hready).run_load (rest := rest)
    (by simp [hlen]) hr hts (congrArg List.tail ha)
  obtain ⟨hrsp, hip, hmac, hphase, hidx, hptr, hidle, hagain⟩ := hv.loaded_respStep hi
  obtain ⟨hrecIp, hrecMac⟩ := hload.record
  obtain ⟨hagenda, hord, -, -⟩ := hload.respStep
  rw [hrecIp, hrecMac] at hrsp
  rw [hrecIp] at hip
  rw [hrecMac] at hmac
  rw [hload.params] at hptr
  rw [hlen] at hord
  have hwhole := (run_add 1 _ s _ (run_succ 0 s _ haccept)).trans hrun
  exact ⟨_, hwhole, hagenda, hrsp, hip, hmac, hphase, hidx, hptr, hord, hidle, hagain⟩

end Sys2Proof.Machine

/-! ### The identity registers (R225 to R227, R43) -/

namespace Sys2Proof.Machine

open Sys2Proof

section IdentityWrites

variable {s : State} (v : BusWord)

theorem idMacWrite_of_written (hm : s.idMac ≠ none) : idMacWrite v s = .refused .identityRewrite :=
  if_pos hm

theorem idMacWrite_of_not_loaded (hm : s.idMac = none) (hl : s.bState ≠ .loaded) :
    idMacWrite v s = .refused .identityNotLoaded :=
  (if_neg (not_not.mpr hm)).trans (if_pos hl)

theorem idIpWrite_of_written (hi : s.idIp ≠ none) : idIpWrite v s = .refused .identityRewrite :=
  if_pos hi

theorem idIpWrite_of_not_loaded (hi : s.idIp = none) (hl : s.bState ≠ .loaded) :
    idIpWrite v s = .refused .identityNotLoaded :=
  (if_neg (not_not.mpr hi)).trans (if_pos hl)

theorem idIpWrite_of_mac_unwritten (hi : s.idIp = none) (hl : s.bState = .loaded) (hm : s.idMac = none) :
    idIpWrite v s = .refused .ipBeforeMac :=
  (if_neg (not_not.mpr hi)).trans ((if_neg (not_not.mpr hl)).trans (if_pos hm))

theorem exec_idMacWr_of_entitled (he : hostEntitled s = true) : exec (.idMacWr v) s = idMacWrite v s :=
  hostAccess_of_entitled he (idMacWrite v)

theorem exec_idIpWr_of_entitled (he : hostEntitled s = true) : exec (.idIpWr v) s = idIpWrite v s :=
  hostAccess_of_entitled he (idIpWrite v)

end IdentityWrites

/-- Settles O16: an entitled access in `B_LOADED` performs the first write of `ID_MAC`. -/
theorem macWriteStores : Obligations.MacWriteStores := fun v s he hl hm =>
  (exec_idMacWr_of_entitled v he).trans ((idMacWrite_next v s _).mpr ⟨hm, hl, rfl⟩)

/-- Settles O17: an entitled access in `B_LOADED` performs the first write of `ID_IP` after that of `ID_MAC`. -/
theorem ipWriteStoresAndPublishes : Obligations.IpWriteStoresAndPublishes := fun v s he hl hm hi =>
  (exec_idIpWr_of_entitled v he).trans ((idIpWrite_next v s _).mpr ⟨hi, hl, hm, rfl⟩)

/-- Settles O18: an entitled access is the write itself, which each condition refuses. -/
theorem identityWritesRefused : Obligations.IdentityWritesRefused := by
  intro v s he
  rw [exec_idMacWr_of_entitled v he, exec_idIpWr_of_entitled v he]
  exact ⟨idMacWrite_of_written v, idMacWrite_of_not_loaded v, idIpWrite_of_written v, idIpWrite_of_not_loaded v,
    idIpWrite_of_mac_unwritten v⟩

end Sys2Proof.Machine

/-! ### The Boot Sequencer's turns (R220 to R229) -/

namespace Sys2Proof.Machine

open Sys2Proof

section BootTurns

variable {s : State}

/-- A free host takes the transition out of its state (R220). -/
theorem takeTurn_boot_of_free (hf : hostFree s = true) : takeTurn .boot s = bootMove s :=
  if_pos hf

/-- Inside a block command, or a call that does not return, no step of the host falls (R72, R228). -/
theorem takeTurn_boot_of_not_free (hf : hostFree s ≠ true) : takeTurn .boot s = .next s :=
  if_neg hf

theorem bootMove_loaded (hb : s.bState = .loaded) : bootMove s = bootPublish s := by
  simp only [bootMove, hb]

theorem bootMove_idle (hb : s.bState = .idle) : bootMove s = .next s := by
  simp only [bootMove, hb]

/-- `B_IRQ` is entered with a call exactly when the build has the interrupt controller (R221). -/
theorem bootMove_reset (hb : s.bState = .reset) :
    bootMove s = .next { s with
      bState := .irq,
      wires := { s.wires with external := if hasIrq s then some .interruptSetup else s.wires.external } } := by
  simp only [bootMove, hb, bootInterrupts]
  cases hasIrq s <;> rfl

/-- `B_CONSOLE` is entered with a call exactly when the build has the UART (R222). -/
theorem bootMove_irq (hb : s.bState = .irq) :
    bootMove s = .next { s with
      bState := .console,
      wires := { s.wires with external := if hasUart s then some .uartInit else s.wires.external } } := by
  simp only [bootMove, hb, bootConsole]
  cases hasUart s <;> rfl

/-- The call of the memory routine is counted, and moves the host on or holds it (R228). -/
theorem bootMove_published (hb : s.bState = .published) (hm : s.memHung = false) :
    bootMove s = .next { s with
      bState := if memReturns s then .memReady else .published,
      memCalls := s.memCalls + 1, memHung := !memReturns s,
      wires := { s.wires with external := some .memInit } } := by
  simp only [bootMove, hb, bootMemory]
  cases memReturns s
  case false => simp [State.calls, hb]
  case true => simp [State.calls, hm]

theorem bootMove_memReady_at_rest (hb : s.bState = .memReady) (hn : s.busy = false) :
    bootMove s = .next { s with bState := .idle } := by
  simp [bootMove, hb, bootRest, hn]

theorem bootMove_memReady_busy (hb : s.bState = .memReady) (hn : s.busy = true) : bootMove s = .next s := by
  simp [bootMove, hb, bootRest, hn]

theorem bootMove_console_ready (hb : s.bState = .console) (hr : cmdReady s = true ∧ s.lPhase = .idle) :
    bootMove s = .next (acceptLoad s) := by
  simp only [bootMove, hb, bootLoad, if_pos hr]

theorem bootMove_console_waits (hb : s.bState = .console) (hr : ¬ (cmdReady s = true ∧ s.lPhase = .idle)) :
    bootMove s = .next s := by
  simp only [bootMove, hb, bootLoad, if_neg hr]

/-- With the command port ready no block command runs (R45, R131). -/
theorem hostEntitled_of_cmdReady (hr : cmdReady s = true) : hostEntitled s = true := by
  obtain ⟨hp, hq, -⟩ := (cmdReady_iff s).mp hr
  exact (hostEntitled_iff s).mpr ⟨hp, hq⟩

end BootTurns

/-- Settles O25: the transition out of each opaque state, taken exactly by a free host. -/
theorem bootOpaqueSteps : Obligations.BootOpaqueSteps := by
  intro s
  constructor
  · intro he hm
    rw [takeTurn_boot_of_free ((hostFree_iff s).mpr ⟨he, hm⟩)]
    exact ⟨bootMove_reset, bootMove_irq, fun hb => bootMove_published hb hm, bootMove_memReady_at_rest,
      bootMove_memReady_busy, bootMove_idle⟩
  · intro h
    refine takeTurn_boot_of_not_free fun hf => ?_
    obtain ⟨he, hm⟩ := (hostFree_iff s).mp hf
    exact h.elim (by simp [he]) (by simp [hm])

/-- Settles O26: a ready command port frees the host, whose offer is then accepted; else it waits, free or not. -/
theorem bootOffersLoad : Obligations.BootOffersLoad := by
  intro s hm hb
  constructor
  · intro hr
    have hf : hostFree s = true := (hostFree_iff s).mpr ⟨hostEntitled_of_cmdReady hr.1, hm⟩
    exact ⟨acceptLoad s, (takeTurn_boot_of_free hf).trans (bootMove_console_ready hb hr),
      execLoadIdentity_of_ready hr.1 hr.2, rfl⟩
  · intro hr
    by_cases hf : hostFree s = true
    · exact (takeTurn_boot_of_free hf).trans (bootMove_console_waits hb hr)
    · exact takeTurn_boot_of_not_free hf

/-- Settles O27: the two writes of the publication, neither refused, with the operands the host received. -/
theorem bootPublishesMacThenIp : Obligations.BootPublishesMacThenIp := by
  intro s hf hb
  rw [takeTurn_boot_of_free hf, bootMove_loaded hb]
  constructor
  · intro hm
    exact (if_pos hm).trans ((idMacWrite_next _ s _).mpr ⟨hm, hb, rfl⟩)
  · intro hm hi
    have hw : (s.ipAcc.setWidth 64).setWidth 32 = s.ipAcc := by simp
    refine (if_neg hm).trans ((idIpWrite_next _ s _).mpr ⟨hi, hb, hm, ?_⟩)
    rw [hw]
    rfl

end Sys2Proof.Machine

/-! ### The host's walk (R220, R223) -/

namespace Sys2Proof.Machine

open Sys2Proof

/-- The response phase moves a host that waits in `B_CONSOLE`, with the tenth byte of the load, and no other (R223). -/
theorem respStep_bState_cases (s : State) :
    (respStep s).bState = s.bState ∨
      (s.bState = .console ∧ (respStep s).bState = .loaded ∧ (respStep s).lPhase = .done ∧ s.lIdx = 9) := by
  by_cases hl : s.lPhase = .wait
  · by_cases hi : s.lIdx = 9
    · rw [respStep_last s hl hi]
      by_cases hb : s.bState = .console
      · exact .inr ⟨hb, if_pos hb, rfl, hi⟩
      · exact .inl (if_neg hb)
    · rw [respStep_more s hl hi]
      exact .inl rfl
  · rw [respStep_host s hl]
    exact .inl rfl

theorem bootMemory_bState (s : State) :
    (bootMemory s).bState = s.bState ∨ (bootMemory s).bState = .memReady := by
  unfold bootMemory
  dsimp only
  split
  · exact .inr rfl
  · exact .inl rfl

/-- Settles O23: of the sequencer's moves only the response phase touches the host's state. -/
theorem responseMovesWaitingHostOnly : Obligations.ResponseMovesWaitingHostOnly := by
  intro s t h
  cases takeTurn_move .sequencer s t h
  case txnResp => exact respStep_bState_cases s
  all_goals exact .inl rfl

/-- A move other than a reset keeps the host's state or takes it to the next one (R220). -/
theorem Move.bState_forward {e : Event} {s t : State} (m : Move e s t) (he : e ≠ .turn .reset) :
    t.bState = s.bState ∨ t.bState.rank = s.bState.rank + 1 := by
  cases m
  case reset => exact absurd rfl he
  case hostIp hb _ | bootIp hb _ _ => exact .inr (by simp [hb, BState.rank])
  case bootInterrupts hb => exact .inr (by rw [bootInterrupts_frame, hb]; rfl)
  case bootConsole hb => exact .inr (by rw [bootConsole_frame, hb]; rfl)
  case bootMemory hb => exact (bootMemory_bState s).imp_right fun hr => by rw [hr, hb]; rfl
  case bootIdle hb _ => exact .inr (by simp [hb, BState.rank])
  case txnResp =>
    obtain hkept | ⟨hb, hr, -, -⟩ := respStep_bState_cases s
    · exact .inl hkept
    · exact .inr (by rw [hr, hb]; rfl)
  all_goals exact .inl rfl

/-- Settles O51: a step is a move, and beginning it leaves the host's state. -/
theorem hostMovesForwardOnly : Obligations.HostMovesForwardOnly :=
  fun s t he h => (step_move s t h).bState_forward he

end Sys2Proof.Machine

/-! ### The host invariant, one lemma per move that touches what it speaks of (R223 to R229, R232, R286) -/

namespace Sys2Proof.Machine

open Sys2Proof

theorem bState_ne_idle_of_not_atRest {s : State} (ha : hostAtRest s = false) : s.bState ≠ .idle :=
  fun hb => by simp [hostAtRest, hb] at ha

theorem hasLoaded_of_hasPublished {s : State} (hp : hasPublished s = true) : hasLoaded s = true := by
  simp only [hasPublished, hasLoaded, decide_eq_true_eq] at hp ⊢
  exact .inr hp

theorem not_published_of_not_loaded {s : State} (hl : hasLoaded s = false) : hasPublished s = false :=
  Bool.eq_false_iff.mpr fun hp => by simp [hasLoaded_of_hasPublished hp] at hl

theorem hasLoaded_congr {s t : State} (hb : t.bState = s.bState) : hasLoaded t = hasLoaded s := by
  simp only [hasLoaded, hb]

section HostInvariant

variable {s : State}

/-- Before the load is done the host has not received it (R223). -/
theorem HostInv.not_loaded (h : HostInv s) (hl : s.lPhase ≠ .done) : hasLoaded s = false :=
  Bool.eq_false_iff.mpr (mt h.loaded hl)

/-- Before the host has received the identity it has written none (R226, R225). -/
theorem HostInv.unwritten (h : HostInv s) (hl : hasLoaded s = false) : s.idMac = none ∧ s.idIp = none := by
  have hm : s.idMac = none := by_contra fun hne => by simp [h.macLoaded hne] at hl
  exact ⟨hm, by_contra fun hne => h.macFirst hne hm⟩

/-- Before the host has received the identity no call holds it (R228). -/
theorem HostInv.not_held (h : HostInv s) (hl : hasLoaded s = false) : s.memHung = false :=
  Bool.eq_false_iff.mpr fun hh => by simp [hasLoaded, h.held hh] at hl

/-- Before the host has received the identity, all that may move is the block, and the host up to `B_LOADED`. -/
theorem HostInv.before_publication (h : HostInv s) (hl : hasLoaded s = false) {t : State} (hm : t.idMac = s.idMac)
    (hi : t.idIp = s.idIp) (hh : t.memHung = s.memHung) (hp : hasPublished t = false)
    (hd : hasLoaded t = true → t.lPhase = .done) : HostInv t := by
  obtain ⟨hm', hi'⟩ := h.unwritten hl
  exact {
    loaded := hd
    macLoaded := by simp [hm, hm']
    macFirst := by simp [hi, hi']
    ipPublishes := by simp [hi, hi', hp]
    atRest := fun hb => by simp [hasPublished, hb] at hp
    held := by simp [hh, h.not_held hl] }

/-- While the load is not done the block works on under a host that does not move (R223). -/
theorem HostInv.loading (h : HostInv s) (hl : s.lPhase ≠ .done) {t : State} (hb : t.bState = s.bState)
    (hm : t.idMac = s.idMac) (hi : t.idIp = s.idIp) (hh : t.memHung = s.memHung) : HostInv t := by
  have hn : hasLoaded s = false := h.not_loaded hl
  have hn' : hasLoaded t = false := (hasLoaded_congr hb).trans hn
  exact h.before_publication hn hm hi hh (not_published_of_not_loaded hn') fun hl' => by simp [hn'] at hl'

/-- The transaction or the transfer moves on under a host that is not in `B_IDLE` (R232). -/
theorem HostInv.work (h : HostInv s) (hb : s.bState ≠ .idle) {t : State} (hs : t.bState = s.bState)
    (hl : t.lPhase = s.lPhase) (hm : t.idMac = s.idMac) (hi : t.idIp = s.idIp) (hh : t.memHung = s.memHung) :
    HostInv t := by
  constructor <;> simp only [hasLoaded, hasPublished, hs, hl, hm, hi, hh]
  · exact h.loaded
  · exact h.macLoaded
  · exact h.macFirst
  · exact h.ipPublishes
  · exact fun hr => absurd hr hb
  · exact h.held

/-- Inside a transaction the host is not in `B_IDLE` (R232). -/
theorem HostInv.not_idle (h : HostInv s) (hp : s.tPhase ≠ .idle) : s.bState ≠ .idle :=
  fun hb => hp (h.atRest hb).1

/-- The response phase takes a waiting host to `B_LOADED` with the load done, and else leaves the host (R194, R223). -/
theorem HostInv.respStep (h : HostInv s) (hp : s.tPhase = .resp) : HostInv (respStep s) := by
  by_cases hl : s.lPhase = .wait
  · have hn : s.lPhase ≠ .done := by simp [hl]
    have hm : (Machine.respStep s).idMac = s.idMac := by rw [respStep_frame]
    have hi : (Machine.respStep s).idIp = s.idIp := by rw [respStep_frame]
    have hh : (Machine.respStep s).memHung = s.memHung := by rw [respStep_frame]
    obtain hkept | ⟨-, hb, hd, -⟩ := respStep_bState_cases s
    · exact h.loading hn hkept hm hi hh
    · exact h.before_publication (h.not_loaded hn) hm hi hh (by simp [hasPublished, hb]) fun _ => hd
  · rw [respStep_host s hl]
    exact h.work (h.not_idle (by simp [hp])) rfl rfl rfl rfl rfl

/-- The write of `ID_MAC` in `B_LOADED` (R226). -/
theorem HostInv.writeMac (h : HostInv s) (hl : s.bState = .loaded) {v : BusWord} {w : Wires} :
    HostInv { s with idMac := some v, wires := w } :=
  { h with
    macLoaded := fun _ => by simp [hasLoaded, hl]
    macFirst := by simp }

/-- The write of `ID_IP` after that of `ID_MAC` publishes (R227). -/
theorem HostInv.writeIp (h : HostInv s) (hl : s.bState = .loaded) (hm : s.idMac ≠ none) {v : BitVec 32} {w : Wires} :
    HostInv { s with idIp := some v, bState := .published, wires := w } :=
  { h with
    loaded := fun _ => h.loaded (by simp [hasLoaded, hl])
    macLoaded := fun _ => by simp [hasLoaded]
    macFirst := fun _ => hm
    ipPublishes := by simp [hasPublished]
    atRest := by simp
    held := fun _ => rfl }

/-- After the publication a free host moves on to `B_MEMREADY`, and to `B_IDLE` with the block at rest (R228, R229,
R232). -/
theorem HostInv.afterPublication (h : HostInv s) (hp : hasPublished s = true) (hm : s.memHung = false) {b : BState}
    {n : Nat} {w : Wires} (hb : b = .memReady ∨ b = .idle ∧ s.tPhase = .idle ∧ s.busy = false) :
    HostInv { s with bState := b, memCalls := n, wires := w } := by
  have hdone : s.lPhase = .done := h.loaded (hasLoaded_of_hasPublished hp)
  have hip : s.idIp ≠ none := h.ipPublishes.mpr hp
  obtain rfl | ⟨rfl, hidle, hbusy⟩ := hb
  all_goals
    exact { h with
      loaded := fun _ => hdone
      macLoaded := fun _ => by simp [hasLoaded]
      ipPublishes := by simp [hip, hasPublished]
      atRest := by simp [*]
      held := by simp [hm] }

/-- The call of the memory routine returns and moves the host on, or holds it where it is (R228). -/
theorem HostInv.bootMemory (h : HostInv s) (hb : s.bState = .published) (hm : s.memHung = false) :
    HostInv (bootMemory s) := by
  unfold Machine.bootMemory
  dsimp only
  split
  · exact h.afterPublication (by simp [hasPublished, hb]) hm (.inl rfl)
  · exact { h with held := fun _ => hb }

end HostInvariant

/-- Every move keeps the host invariant. -/
theorem HostInv.move {e : Event} {s t : State} (h : HostInv s) (m : Move e s t) : HostInv t := by
  cases m
  case reset => exact hostInv_resetEvent s
  case readByte ha _ | hostStart _ ha _ _ _ => exact h.work (bState_ne_idle_of_not_atRest ha) rfl rfl rfl rfl rfl
  case txnSel hp _ | txnCmd hp _ | txnGo hp _ _ | txnPoll hp =>
    exact h.work (h.not_idle (by simp [hp])) rfl rfl rfl rfl rfl
  case txnResp hp => exact h.respStep hp
  case complete => exact { h with atRest := fun hb => ⟨(h.atRest hb).1, rfl⟩ }
  case loadIdentity hl | bootLoad hl | request hl _ =>
    exact h.loading (by simp [hl]) rfl rfl rfl rfl
  case hostMac hl | bootMac hl _ => exact h.writeMac hl
  case hostIp hl hm | bootIp hl hm _ => exact h.writeIp hl hm
  case bootInterrupts hb =>
    rw [bootInterrupts_frame]
    exact h.before_publication (by simp [hasLoaded, hb]) rfl rfl rfl rfl (by simp [hasLoaded])
  case bootConsole hb =>
    rw [bootConsole_frame]
    exact h.before_publication (by simp [hasLoaded, hb]) rfl rfl rfl rfl (by simp [hasLoaded])
  case bootMemory hf hb => exact h.bootMemory hb ((hostFree_iff s).mp hf).2
  case bootIdle hf hb hn =>
    obtain ⟨he, hm⟩ := (hostFree_iff s).mp hf
    obtain ⟨hp, -⟩ := (hostEntitled_iff s).mp he
    exact h.afterPublication (by simp [hasPublished, hb]) hm (.inr ⟨rfl, hp, hn⟩)
  case ignored | rest | hostCs | hostMosi | hostLength | hostSees | device | shift => exact { h with }

/-- The invariant does not see the start of a step, which takes the event and quiets the wires. -/
theorem HostInv.advance {s : State} (h : HostInv s) : HostInv s.advance := { h with }

/-- Settles O41, by the cases of the moves a step can make. -/
theorem everyStepKeepsHostOrder : Obligations.EveryStepKeepsHostOrder :=
  fun s t h hs => h.advance.move (step_move s t hs)

end Sys2Proof.Machine

/-! ### What is published is what was loaded (R233) -/

namespace Sys2Proof.Machine

open Sys2Proof

/-- A byte reaches the accumulators only before an identity is written, so what is written stays what they hold
(R193, R226). -/
theorem PubInv.respStep {s : State} (h : PubInv s) (hh : HostInv s) : PubInv (respStep s) := by
  by_cases hl : s.lPhase = .wait
  · obtain ⟨hm, hi⟩ := hh.unwritten (hh.not_loaded (by simp [hl]))
    rw [respStep_frame]
    exact ⟨by simp [hm], by simp [hi]⟩
  · rw [respStep_host s hl]
    exact { h with }

/-- Every move keeps the publication invariant, if a presented identity write passes the received value. -/
theorem PubInv.move {e : Event} {s t : State} (h : PubInv s) (hh : HostInv s) (m : Move e s t)
    (hpass : ∀ q, e = .request q →
      (∀ v, fetched s q = .ok (.idMacWr v) → v = s.macAcc) ∧
      (∀ v, fetched s q = .ok (.idIpWr v) → v.setWidth 32 = s.ipAcc)) : PubInv t := by
  cases m
  case reset => exact pubInv_resetEvent s
  case hostMac q v hq _ _ _ _ => exact { h with mac := fun _ hv => Option.some.inj hv ▸ (hpass q rfl).1 v hq }
  case hostIp q v hq _ _ _ _ _ => exact { h with ip := fun _ hv => Option.some.inj hv ▸ (hpass q rfl).2 v hq }
  case bootMac => exact { h with mac := fun _ hv => (Option.some.inj hv).symm }
  case bootIp => exact { h with ip := fun _ hv => (Option.some.inj hv).symm }
  case txnResp => exact h.respStep hh
  case bootInterrupts => rw [bootInterrupts_frame]; exact { h with }
  case bootConsole => rw [bootConsole_frame]; exact { h with }
  case bootMemory => rw [bootMemory_frame]; exact { h with }
  all_goals exact { h with }

theorem PubInv.advance {s : State} (h : PubInv s) : PubInv s.advance := { h with }

/-- After the publication both registers are written, each with its accumulator (R224, R233). -/
theorem PubInv.identity_of_published {s : State} (h : PubInv s) (hh : HostInv s) (hp : hasPublished s = true) :
    s.idMac = some s.macAcc ∧ s.idIp = some s.ipAcc := by
  have hip : s.idIp ≠ none := hh.ipPublishes.mpr hp
  obtain ⟨ip, hi⟩ := Option.ne_none_iff_exists'.mp hip
  obtain ⟨mac, hm⟩ := Option.ne_none_iff_exists'.mp (hh.macFirst hip)
  rw [hm, hi, h.mac mac hm, h.ip ip hi]
  exact ⟨rfl, rfl⟩

/-- Settles O42: the step is a move that keeps both invariants, and with both a published identity is the
accumulators'. -/
theorem publishedIsWhatWasLoaded : Obligations.PublishedIsWhatWasLoaded := by
  intro s t hh h hpass hs
  have m := step_move s t hs
  have h' : PubInv t := h.advance.move hh.advance m hpass
  exact ⟨h', h'.identity_of_published (hh.advance.move m)⟩

end Sys2Proof.Machine

/-! ### The end of a run (R229, R232) -/

namespace Sys2Proof.Machine

open Sys2Proof

section EndOfRun

variable {s : State}

theorem HostInv.done_of_final (h : HostInv s) (hf : Final s) : s.lPhase = .done :=
  h.loaded (by simp [hasLoaded, show s.bState = .idle from hf])

theorem HostInv.written_of_final (h : HostInv s) (hf : Final s) : s.idMac ≠ none ∧ s.idIp ≠ none := by
  have hip : s.idIp ≠ none := h.ipPublishes.mpr (by simp [hasPublished, show s.bState = .idle from hf])
  exact ⟨h.macFirst hip, hip⟩

theorem HostInv.entitled_of_final (h : HostInv s) (hf : Final s) : hostEntitled s = true :=
  (hostEntitled_iff s).mpr ⟨(h.atRest hf).1, .inr (h.done_of_final hf)⟩

theorem hostAtRest_of_final (hf : Final s) : hostAtRest s = true :=
  (hostAtRest_iff s).mpr (.inl hf)

/-- In `B_IDLE` the host has no step, whether it is free or not (R229). -/
theorem takeTurn_boot_idle (hb : s.bState = .idle) : takeTurn .boot s = .next s := by
  by_cases hf : hostFree s = true
  · exact (takeTurn_boot_of_free hf).trans (bootMove_idle hb)
  · exact takeTurn_boot_of_not_free hf

theorem takeTurn_sequencer_idle (hp : s.tPhase = .idle) : takeTurn .sequencer s = .next s := by
  simp only [takeTurn, sequencerTurn, hp]

/-- With no transfer running the transfer agent has no step (R143, R145). -/
theorem takeTurn_transfer_rest (hb : s.busy = false) : takeTurn .transfer s = .next s := by
  simp [takeTurn, transferTurn, shiftEnabled, completeEnabled, hb]

/-- At the end of a run no agent has a step (R232). -/
theorem HostInv.takeTurn_of_final (h : HostInv s) (hf : Final s) {u : Turn} (hu : u ≠ .reset) :
    takeTurn u s = .next s := by
  obtain ⟨hp, hb⟩ := h.atRest hf
  cases u
  case boot => exact takeTurn_boot_idle hf
  case loader => exact takeTurn_loader_rest (by simp [h.done_of_final hf])
  case sequencer => exact takeTurn_sequencer_idle hp
  case transfer => exact takeTurn_transfer_rest hb
  case reset => exact absurd rfl hu

/-- At the end of a run a request of the host is not made (R229, log 37). -/
theorem step_request_of_final (hf : Final s) {q : Request} {t : State} (hq : nextEvent s = .request q)
    (hh : fromHost q = true) (hs : step s = .next t) : t = s.advance := by
  rw [step_eq_perform hq, perform_eq_unmade (hostAtRest_of_final (s := s.advance) hf) hh] at hs
  exact ((unmade_next _ _ _).mp hs).1

/-- At the end of a run an identity write is a second one, and refused (R43, U6). -/
theorem HostInv.step_identity_write_of_final (h : HostInv s) (hf : Final s) {r : Reg} (hr : r ∈ [Reg.idMac, .idIp])
    {v : BusWord} (hq : nextEvent s = .request ⟨.write r, v⟩) : step s = .refused .identityRewrite := by
  have he : hostEntitled s.advance = true := h.advance.entitled_of_final hf
  obtain ⟨hm, hi⟩ := h.written_of_final hf
  rw [step_eq_perform hq, perform_refused]
  obtain rfl | rfl : r = .idMac ∨ r = .idIp := by simpa using hr
  · exact (exec_idMacWr_of_entitled v he).trans (idMacWrite_of_written v hm)
  · exact (exec_idIpWr_of_entitled v he).trans (idIpWrite_of_written v hi)

/-- At the end of a run the only move that does anything, a reset apart, is a frame at the wire (R232, R150). -/
theorem HostInv.move_cases_of_final (h : HostInv s) (hf : Final s) {e : Event} {t : State} (m : Move e s t)
    (he : e ≠ .turn .reset) : t = s ∨ ∃ w, t = deviceFrame w s := by
  have hb : s.bState = .idle := hf
  have hrest : hostAtRest s ≠ false := by simp [hostAtRest_of_final hf]
  have hdone : s.lPhase = .done := h.done_of_final hf
  obtain ⟨hidle, hbusy⟩ := h.atRest hf
  cases m
  case ignored | rest => exact .inl rfl
  case device w => exact .inr ⟨w, rfl⟩
  case reset => exact absurd rfl he
  case readByte | loadIdentity | hostCs | hostMosi | hostLength | hostStart | hostSees | hostMac | hostIp =>
    exact absurd ‹_› hrest
  case shift hs => simp [((shiftEnabled_iff s).mp hs).1] at hbusy
  case complete hc => simp [((completeEnabled_iff s).mp hc).1] at hbusy
  case txnSel hp _ | txnCmd hp _ | txnGo hp _ _ | txnPoll hp | txnResp hp => simp [hp] at hidle
  case request hl _ => simp [hl] at hdone
  case bootInterrupts hs | bootConsole hs | bootLoad hs _ _ | bootMac hs _ | bootIp hs _ _ | bootMemory hs
      | bootIdle hs _ => simp [hs] at hb

end EndOfRun

/-- Settles O55: the invariant says what rests, each agent's turn and a host's request do nothing, an identity write is
a second one, and of the moves only a frame at the wire does anything. -/
theorem finalStateRests : Obligations.FinalStateRests := by
  intro s h hf
  obtain ⟨hidle, hbusy⟩ := h.atRest hf
  refine ⟨⟨h.done_of_final hf, hidle, hbusy, h.written_of_final hf⟩, fun u hu => h.takeTurn_of_final hf hu,
    fun q t hq hh hs => step_request_of_final hf hq hh hs,
    fun r hr v hq => h.step_identity_write_of_final hf hr hq, fun t he hs => ?_⟩
  obtain rfl | ⟨w, rfl⟩ := h.advance.move_cases_of_final hf (step_move s t hs) he
  · rfl
  · rfl

end Sys2Proof.Machine

/-! ### The reset event (R270, R271)

What the derived signals and the flash read after a reset from any state, and with them the statement on reset. -/

namespace Sys2Proof.Machine

open Sys2Proof

theorem takeTurn_reset (s : State) : takeTurn .reset s = .next (resetEvent s) := rfl

@[simp] theorem sel_resetEvent (s : State) : sel (resetEvent s) = false := rfl

/-- After a reset no agent runs: sequencer and loader are idle and no transfer is in progress (R45). -/
@[simp] theorem cmdReady_resetEvent (s : State) : cmdReady (resetEvent s) = true := rfl

@[simp] theorem idValid_resetEvent (s : State) : idValid (resetEvent s) = false := rfl

theorem flashAt_resetEvent (s : State) : flashAt (resetEvent s) = flashAt s := flashAt_congr rfl

/-- A step whose event is reset answers the reset event of the state with the event taken off. -/
theorem step_eq_resetEvent {s : State} (h : nextEvent s = .turn .reset) : step s = .next (resetEvent s.advance) :=
  (step_eq_takeTurn h).trans (takeTurn_reset s.advance)

/-- Settles O28: the step is the reset event, which takes each item of R20's state from `State.reset` and keeps the
flash. -/
theorem resetWinsFromAnyState : Obligations.ResetWinsFromAnyState := by
  intro s h
  have hflash (a : FlashAddr) : flashAt (resetEvent s.advance) a = flashAt s a := by
    rw [flashAt_resetEvent, flashAt_congr s.advance_flash]
  refine ⟨resetEvent s.advance, step_eq_resetEvent h, ?_⟩
  rw [sel_resetEvent, cmdReady_resetEvent, idValid_resetEvent]
  simp only [hflash]
  simp [resetEvent, State.reset, Wires.quiet]

end Sys2Proof.Machine
